-- ==== Sys2Proof/Word.lean ====
section
/-! DEFINITION. The word types of the block and the two readings of a bit pattern as an integer. -/

namespace Sys2Proof

/-- The native 64-bit word, w = 64 (R7). -/
abbrev Word := BitVec 64

/-- A 32-bit command word (R70). -/
abbrev CmdWord := BitVec 32

/-- A 3-bit register number naming V0 to V7 (R73). -/
abbrev Reg := BitVec 3

/-- A 15-bit immediate (R75). -/
abbrev Imm15 := BitVec 15

/-- The signedness that an S or X bit gives: 0 is unsigned, 1 is signed (R74). -/
inductive Sign where
  | u
  | s
deriving DecidableEq, Repr

/-- The signedness that a bit of the command word selects. -/
def Sign.ofBit (b : Bool) : Sign := if b then .s else .u

/-- The bit of the command word that stands for a signedness. -/
def Sign.bit : Sign → Bool
  | .u => false
  | .s => true

end Sys2Proof
end

