-- ==== Sys2Proof/Syntax.lean ====
section
/-! DEFINITION. The command set: one constructor per row of spec/opcode_table.json (R79), operands in the order of the
assembler syntax (R83): destinations first, then sources, then the immediate. -/

namespace Sys2Proof

/-- The 46 commands (R79, R86). A `Sign` argument is the S bit, or, where a docstring says so, the X bit (R74). -/
inductive Instr where
  /-- WRW Vd, #k (R324) -/
  | wrw (rd : Reg) (imm : Imm15)
  /-- RDW Va, #k (R325) -/
  | rdw (ra : Reg) (imm : Imm15)
  /-- SEQB.t.s Vd: target signedness S, source signedness X (R102) -/
  | seqb (ts ss : Sign) (rd : Reg)
  /-- SEQW (R103) -/
  | seqw
  /-- SEQE (R104) -/
  | seqe
  /-- FROMWT.s Vd: source signedness X (R105) -/
  | fromwt (ss : Sign) (rd : Reg)
  /-- FROMWC.t.s Vd: target signedness S, source signedness X (R106) -/
  | fromwc (ts ss : Sign) (rd : Reg)
  /-- FROMWE.t.s Vd: target signedness S, source signedness X (R107) -/
  | fromwe (ts ss : Sign) (rd : Reg)
  /-- ADD.t Vd, Va, Vb (R130) -/
  | add (sg : Sign) (rd ra rb : Reg)
  /-- SUB.t Vd, Va, Vb (R132) -/
  | sub (sg : Sign) (rd ra rb : Reg)
  /-- ADDD.t Vd, Va, Vb: the Digit is word 0 of Vb (R134) -/
  | addd (sg : Sign) (rd ra rb : Reg)
  /-- SUBD.t Vd, Va, Vb (R136) -/
  | subd (sg : Sign) (rd ra rb : Reg)
  /-- MUL.t Vd, Va, Vb (R160) -/
  | mul (sg : Sign) (rd ra rb : Reg)
  /-- MULD.t Vd, Va, Vb (R165) -/
  | muld (sg : Sign) (rd ra rb : Reg)
  /-- MULFW.t Vlo, Vhi, Va, Vb (R163) -/
  | mulfw (sg : Sign) (rd re ra rb : Reg)
  /-- MULFWD.t Vlo, Vhi, Va, Vb (R166) -/
  | mulfwd (sg : Sign) (rd re ra rb : Reg)
  /-- DIV.t Vq, Vr, Va, Vb (R190) -/
  | div (sg : Sign) (rd re ra rb : Reg)
  /-- DIVFW.t Vq, Vr, Vhigh, Vlow, Vdivisor (R192) -/
  | divfw (sg : Sign) (rd re ra rb rc : Reg)
  /-- DIVD.t Vq, Vr, Va, Vb (R191) -/
  | divd (sg : Sign) (rd re ra rb : Reg)
  /-- NOT Vd, Va (R230) -/
  | not (rd ra : Reg)
  /-- NEG.t Vd, Va (R231) -/
  | neg (sg : Sign) (rd ra : Reg)
  /-- MAG.t Vd, Va (R233) -/
  | mag (sg : Sign) (rd ra : Reg)
  /-- SHL.t Vd, Va, Vb (R255) -/
  | shl (sg : Sign) (rd ra rb : Reg)
  /-- SHLI Vd, Va, #k (R256) -/
  | shli (rd ra : Reg) (imm : Imm15)
  /-- SHR.t Vd, Va, Vb (R257) -/
  | shr (sg : Sign) (rd ra rb : Reg)
  /-- SHRI.t Vd, Va, #k (R258) -/
  | shri (sg : Sign) (rd ra : Reg) (imm : Imm15)
  /-- SHLM Vd, Va, Vb (R259) -/
  | shlm (rd ra rb : Reg)
  /-- SHLMI Vd, Va, #k (R260) -/
  | shlmi (rd ra : Reg) (imm : Imm15)
  /-- SHRM.t Vd, Va, Vb (R261) -/
  | shrm (sg : Sign) (rd ra rb : Reg)
  /-- SHRMI.t Vd, Va, #k (R262) -/
  | shrmi (sg : Sign) (rd ra : Reg) (imm : Imm15)
  /-- SHLW Vd, Va, Vb (R263) -/
  | shlw (rd ra rb : Reg)
  /-- SHLWI Vd, Va, #k (R264) -/
  | shlwi (rd ra : Reg) (imm : Imm15)
  /-- SHRW.t Vd, Va, Vb (R265) -/
  | shrw (sg : Sign) (rd ra rb : Reg)
  /-- SHRWI.t Vd, Va, #k (R266) -/
  | shrwi (sg : Sign) (rd ra : Reg) (imm : Imm15)
  /-- ROL Vd, Va, Vb (R267) -/
  | rol (rd ra rb : Reg)
  /-- ROLI Vd, Va, #k (R268) -/
  | roli (rd ra : Reg) (imm : Imm15)
  /-- ROR Vd, Va, Vb (R269) -/
  | ror (rd ra rb : Reg)
  /-- RORI Vd, Va, #k (R270) -/
  | rori (rd ra : Reg) (imm : Imm15)
  /-- BGET Vd, Va, Vb (R301) -/
  | bget (rd ra rb : Reg)
  /-- BGETI Vd, Va, #i (R302) -/
  | bgeti (rd ra : Reg) (imm : Imm15)
  /-- BSET Vd, Va, Vb (R303) -/
  | bset (rd ra rb : Reg)
  /-- BSETI Vd, Va, #i (R304) -/
  | bseti (rd ra : Reg) (imm : Imm15)
  /-- BCLR Vd, Va, Vb (R305) -/
  | bclr (rd ra rb : Reg)
  /-- BCLRI Vd, Va, #i (R306) -/
  | bclri (rd ra : Reg) (imm : Imm15)
  /-- BTGL Vd, Va, Vb (R307) -/
  | btgl (rd ra rb : Reg)
  /-- BTGLI Vd, Va, #i (R308) -/
  | btgli (rd ra : Reg) (imm : Imm15)
deriving DecidableEq, Repr

/-! The pseudo-instructions of R84 are other spellings of one command each. -/

/-- MOV Vd, Va expands to SHLI Vd, Va, #0 (R84). -/
abbrev Instr.mov (rd ra : Reg) : Instr := .shli rd ra 0

/-- CPL Vd, Va expands to NOT Vd, Va (R84). -/
abbrev Instr.cpl (rd ra : Reg) : Instr := .not rd ra

/-- ABS.s Vd, Va expands to MAG.s Vd, Va (R84). -/
abbrev Instr.abs (rd ra : Reg) : Instr := .mag .s rd ra

end Sys2Proof
end

