-- ==== Sys2Proof/WellFormed.lean ====
section
/-! DEFINITION. The one check that the types of the operands do not already make: a command with two destinations names
two different registers (R79, R80 (e)). Every value of every field of every other command is admitted. -/

namespace Sys2Proof

/-- The two destinations RD and RE of a two-destination command (R79); none for the others. -/
def Instr.twoDest : Instr → Option (Reg × Reg)
  | .mulfw _ rd re _ _ => some (rd, re)
  | .mulfwd _ rd re _ _ => some (rd, re)
  | .div _ rd re _ _ => some (rd, re)
  | .divfw _ rd re _ _ _ => some (rd, re)
  | .divd _ rd re _ _ => some (rd, re)
  | .wrw .. | .rdw .. | .seqb .. | .seqw | .seqe | .fromwt .. | .fromwc .. | .fromwe .. => none
  | .add .. | .sub .. | .addd .. | .subd .. | .mul .. | .muld .. | .not .. | .neg .. | .mag .. => none
  | .shl .. | .shli .. | .shr .. | .shri .. | .shlm .. | .shlmi .. | .shrm .. | .shrmi .. => none
  | .shlw .. | .shlwi .. | .shrw .. | .shrwi .. | .rol .. | .roli .. | .ror .. | .rori .. => none
  | .bget .. | .bgeti .. | .bset .. | .bseti .. | .bclr .. | .bclri .. | .btgl .. | .btgli .. => none

/-- A command that some word of R80's legal words encodes: RD ≠ RE where there are two destinations. -/
def Instr.wellFormed (i : Instr) : Bool :=
  match i.twoDest with
  | some (rd, re) => rd != re
  | none => true

end Sys2Proof
end

