-- ==== Sys2Proof/Decode.lean ====
section
/-! DEFINITION. The decoder, by the procedure of R82 over the table of R79, and after it the encoder (R71, R72).
The decoder reads a 32-bit number; no bytes and no byte order are visible to the block (R51, R70). -/

namespace Sys2Proof

/-- Why a word is illegal: the clauses (a) to (e) of R80, each by name. -/
inductive DecodeError where
  /-- R80 (a): OP is reserved. -/
  | reservedOp
  /-- R80 (b): X = 1 where R78 says illegal. -/
  | illegalVariant
  /-- R80 (c): S = 1 where R79 says S 0. -/
  | illegalSign
  /-- R80 (d): a field that must be 0 is not. -/
  | nonzeroField
  /-- R80 (e): a two-destination command names one register twice. -/
  | sameDestination
deriving DecidableEq, Repr

/-- The bit fields of a command word in both formats (R71, R72): IMM15 overlays RB, RC and Z. -/
structure Fields where
  op : BitVec 6
  s : Bool
  x : Bool
  rd : Reg
  re : Reg
  ra : Reg
  rb : Reg
  rc : Reg
  z : BitVec 9
  imm : Imm15
deriving DecidableEq, Repr

/-- The fields of the word c (R71, R72). -/
def fieldsOf (c : CmdWord) : Fields :=
  { op := c.extractLsb' 26 6, s := c.getLsbD 25, x := c.getLsbD 24,
    rd := c.extractLsb' 21 3, re := c.extractLsb' 18 3, ra := c.extractLsb' 15 3,
    rb := c.extractLsb' 12 3, rc := c.extractLsb' 9 3, z := c.extractLsb' 0 9, imm := c.extractLsb' 0 15 }

/-- The two formats (R71, R72). -/
inductive Format where
  | r
  | i
deriving DecidableEq, Repr

/-- One row of R79: which X it has (none where any), its format, whether S may be 1, which register fields it uses,
and the command that its fields stand for. -/
structure Row where
  op : BitVec 6
  x : Option Bool
  format : Format
  sAny : Bool
  usesRD : Bool
  usesRE : Bool
  usesRA : Bool
  usesRB : Bool
  usesRC : Bool
  build : Fields → Instr

/-- The signedness in the S bit. -/
def Fields.sg (f : Fields) : Sign := .ofBit f.s

/-- The signedness in the X bit (the source signedness, R74). -/
def Fields.xg (f : Fields) : Sign := .ofBit f.x

/-- A row of format R with the destination RD and the sources RA and RB. -/
def Row.dab (op : BitVec 6) (sAny : Bool) (build : Fields → Instr) : Row :=
  { op := op, x := some false, format := .r, sAny := sAny, usesRD := true, usesRE := false, usesRA := true,
    usesRB := true, usesRC := false, build := build }

/-- A row of format I with the destination RD and the source RA, X = 1. -/
def Row.dai (op : BitVec 6) (sAny : Bool) (build : Fields → Instr) : Row :=
  { op := op, x := some true, format := .i, sAny := sAny, usesRD := true, usesRE := false, usesRA := true,
    usesRB := false, usesRC := false, build := build }

/-- A row of format R that uses no source field, X any or 0. -/
def Row.dest (op : BitVec 6) (x : Option Bool) (sAny usesRD : Bool) (build : Fields → Instr) : Row :=
  { op := op, x := x, format := .r, sAny := sAny, usesRD := usesRD, usesRE := false, usesRA := false,
    usesRB := false, usesRC := false, build := build }

/-- A row of format R with the destination RD and the source RA. -/
def Row.da (op : BitVec 6) (x sAny : Bool) (build : Fields → Instr) : Row :=
  { op := op, x := some x, format := .r, sAny := sAny, usesRD := true, usesRE := false, usesRA := true,
    usesRB := false, usesRC := false, build := build }

/-- A two-destination row of format R, S any, X = 0. -/
def Row.deab (op : BitVec 6) (usesRC : Bool) (build : Fields → Instr) : Row :=
  { op := op, x := some false, format := .r, sAny := true, usesRD := true, usesRE := true, usesRA := true,
    usesRB := true, usesRC := usesRC, build := build }

/-- R79, the rows of construction, word access, addition, multiplication, division and sign. -/
def arithRows : List Row :=
  [ { op := 0x01#6, x := some false, format := .i, sAny := false, usesRD := true, usesRE := false, usesRA := false,
      usesRB := false, usesRC := false, build := fun f => .wrw f.rd f.imm },
    { op := 0x02#6, x := some false, format := .i, sAny := false, usesRD := false, usesRE := false, usesRA := true,
      usesRB := false, usesRC := false, build := fun f => .rdw f.ra f.imm },
    .dest 0x03#6 none true true (fun f => .seqb f.sg f.xg f.rd),
    .dest 0x04#6 (some false) false false (fun _ => .seqw),
    .dest 0x05#6 (some false) false false (fun _ => .seqe),
    .dest 0x06#6 none false true (fun f => .fromwt f.xg f.rd),
    .dest 0x07#6 none true true (fun f => .fromwc f.sg f.xg f.rd),
    .dest 0x08#6 none true true (fun f => .fromwe f.sg f.xg f.rd),
    .dab 0x10#6 true (fun f => .add f.sg f.rd f.ra f.rb),
    .dab 0x11#6 true (fun f => .sub f.sg f.rd f.ra f.rb),
    .dab 0x12#6 true (fun f => .addd f.sg f.rd f.ra f.rb),
    .dab 0x13#6 true (fun f => .subd f.sg f.rd f.ra f.rb),
    .dab 0x14#6 true (fun f => .mul f.sg f.rd f.ra f.rb),
    .deab 0x15#6 false (fun f => .mulfw f.sg f.rd f.re f.ra f.rb),
    .dab 0x16#6 true (fun f => .muld f.sg f.rd f.ra f.rb),
    .deab 0x17#6 false (fun f => .mulfwd f.sg f.rd f.re f.ra f.rb),
    .deab 0x18#6 false (fun f => .div f.sg f.rd f.re f.ra f.rb),
    .deab 0x19#6 true (fun f => .divfw f.sg f.rd f.re f.ra f.rb f.rc),
    .deab 0x1A#6 false (fun f => .divd f.sg f.rd f.re f.ra f.rb),
    .da 0x1C#6 false false (fun f => .not f.rd f.ra),
    .da 0x1C#6 true true (fun f => .neg f.sg f.rd f.ra),
    .da 0x1D#6 false true (fun f => .mag f.sg f.rd f.ra) ]

/-- R79, the rows of shifts, rotations and bit access. -/
def shiftRows : List Row :=
  [ .dab 0x20#6 true (fun f => .shl f.sg f.rd f.ra f.rb),
    .dai 0x20#6 false (fun f => .shli f.rd f.ra f.imm),
    .dab 0x21#6 true (fun f => .shr f.sg f.rd f.ra f.rb),
    .dai 0x21#6 true (fun f => .shri f.sg f.rd f.ra f.imm),
    .dab 0x22#6 false (fun f => .shlm f.rd f.ra f.rb),
    .dai 0x22#6 false (fun f => .shlmi f.rd f.ra f.imm),
    .dab 0x23#6 true (fun f => .shrm f.sg f.rd f.ra f.rb),
    .dai 0x23#6 true (fun f => .shrmi f.sg f.rd f.ra f.imm),
    .dab 0x24#6 false (fun f => .shlw f.rd f.ra f.rb),
    .dai 0x24#6 false (fun f => .shlwi f.rd f.ra f.imm),
    .dab 0x25#6 true (fun f => .shrw f.sg f.rd f.ra f.rb),
    .dai 0x25#6 true (fun f => .shrwi f.sg f.rd f.ra f.imm),
    .dab 0x26#6 false (fun f => .rol f.rd f.ra f.rb),
    .dai 0x26#6 false (fun f => .roli f.rd f.ra f.imm),
    .dab 0x27#6 false (fun f => .ror f.rd f.ra f.rb),
    .dai 0x27#6 false (fun f => .rori f.rd f.ra f.imm),
    .dab 0x28#6 false (fun f => .bget f.rd f.ra f.rb),
    .dai 0x28#6 false (fun f => .bgeti f.rd f.ra f.imm),
    .dab 0x29#6 false (fun f => .bset f.rd f.ra f.rb),
    .dai 0x29#6 false (fun f => .bseti f.rd f.ra f.imm),
    .dab 0x2A#6 false (fun f => .bclr f.rd f.ra f.rb),
    .dai 0x2A#6 false (fun f => .bclri f.rd f.ra f.imm),
    .dab 0x2B#6 false (fun f => .btgl f.rd f.ra f.rb),
    .dai 0x2B#6 false (fun f => .btgli f.rd f.ra f.imm) ]

/-- The table of R79: 46 rows. -/
def rows : List Row := arithRows ++ shiftRows

/-- The row has the OP and the X of the fields (R82). -/
def Row.selects (r : Row) (f : Fields) : Bool :=
  r.op == f.op && (r.x == none || r.x == some f.x)

/-- Every field that the row marks 0 is 0; in format I the fields RB, RC and Z do not exist (R82). -/
def Row.unusedZero (r : Row) (f : Fields) : Bool :=
  (r.usesRD || f.rd == 0) && (r.usesRE || f.re == 0) && (r.usesRA || f.ra == 0) &&
    (r.format == .i || ((r.usesRB || f.rb == 0) && (r.usesRC || f.rc == 0) && f.z == 0))

/-- The checks of R82 on a row that was found, in R82's order. -/
def Row.accept (r : Row) (f : Fields) : Except DecodeError Instr :=
  if f.s && !r.sAny then .error .illegalSign
  else if !r.unusedZero f then .error .nonzeroField
  else if r.usesRE && f.rd == f.re then .error .sameDestination
  else .ok (r.build f)

/-- R82: total on every 32-bit word. -/
def decode (c : CmdWord) : Except DecodeError Instr :=
  match rows.find? (fun r => r.selects (fieldsOf c)) with
  | some r => r.accept (fieldsOf c)
  | none =>
    if rows.any (fun r => r.op == (fieldsOf c).op) then .error .illegalVariant else .error .reservedOp

/-- The instruction that the decoder reads from an instruction of the opcode table whose bits are `w`; a command is
32 bits long (R70), so every bit above `nbits` is 0 and a longer row does not exist. -/
def decodeTableWord (nbits w : Nat) : Option Instr :=
  if nbits ≤ 32 then
    match decode (BitVec.ofNat 32 (w % 2 ^ nbits)) with
    | .ok i => some i
    | .error _ => none
  else none

/-! ## The encoder -/

/-- A word of format R (R71) with Z = 0. -/
def wordR (op : BitVec 6) (s x : Bool) (rd re ra rb rc : Reg) : CmdWord :=
  op ++ BitVec.ofBool s ++ BitVec.ofBool x ++ rd ++ re ++ ra ++ rb ++ rc ++ (0#9)

/-- A word of format I (R72) with RE = 0. -/
def wordI (op : BitVec 6) (s x : Bool) (rd ra : Reg) (imm : Imm15) : CmdWord :=
  op ++ BitVec.ofBool s ++ BitVec.ofBool x ++ rd ++ (0#3) ++ ra ++ imm

/-- The command word of a command (R71, R72, R78, R79). -/
def encode : Instr → CmdWord
  | .wrw rd imm => wordI 0x01#6 false false rd 0 imm
  | .rdw ra imm => wordI 0x02#6 false false 0 ra imm
  | .seqb ts ss rd => wordR 0x03#6 ts.bit ss.bit rd 0 0 0 0
  | .seqw => wordR 0x04#6 false false 0 0 0 0 0
  | .seqe => wordR 0x05#6 false false 0 0 0 0 0
  | .fromwt ss rd => wordR 0x06#6 false ss.bit rd 0 0 0 0
  | .fromwc ts ss rd => wordR 0x07#6 ts.bit ss.bit rd 0 0 0 0
  | .fromwe ts ss rd => wordR 0x08#6 ts.bit ss.bit rd 0 0 0 0
  | .add sg rd ra rb => wordR 0x10#6 sg.bit false rd 0 ra rb 0
  | .sub sg rd ra rb => wordR 0x11#6 sg.bit false rd 0 ra rb 0
  | .addd sg rd ra rb => wordR 0x12#6 sg.bit false rd 0 ra rb 0
  | .subd sg rd ra rb => wordR 0x13#6 sg.bit false rd 0 ra rb 0
  | .mul sg rd ra rb => wordR 0x14#6 sg.bit false rd 0 ra rb 0
  | .mulfw sg rd re ra rb => wordR 0x15#6 sg.bit false rd re ra rb 0
  | .muld sg rd ra rb => wordR 0x16#6 sg.bit false rd 0 ra rb 0
  | .mulfwd sg rd re ra rb => wordR 0x17#6 sg.bit false rd re ra rb 0
  | .div sg rd re ra rb => wordR 0x18#6 sg.bit false rd re ra rb 0
  | .divfw sg rd re ra rb rc => wordR 0x19#6 sg.bit false rd re ra rb rc
  | .divd sg rd re ra rb => wordR 0x1A#6 sg.bit false rd re ra rb 0
  | .not rd ra => wordR 0x1C#6 false false rd 0 ra 0 0
  | .neg sg rd ra => wordR 0x1C#6 sg.bit true rd 0 ra 0 0
  | .mag sg rd ra => wordR 0x1D#6 sg.bit false rd 0 ra 0 0
  | .shl sg rd ra rb => wordR 0x20#6 sg.bit false rd 0 ra rb 0
  | .shli rd ra imm => wordI 0x20#6 false true rd ra imm
  | .shr sg rd ra rb => wordR 0x21#6 sg.bit false rd 0 ra rb 0
  | .shri sg rd ra imm => wordI 0x21#6 sg.bit true rd ra imm
  | .shlm rd ra rb => wordR 0x22#6 false false rd 0 ra rb 0
  | .shlmi rd ra imm => wordI 0x22#6 false true rd ra imm
  | .shrm sg rd ra rb => wordR 0x23#6 sg.bit false rd 0 ra rb 0
  | .shrmi sg rd ra imm => wordI 0x23#6 sg.bit true rd ra imm
  | .shlw rd ra rb => wordR 0x24#6 false false rd 0 ra rb 0
  | .shlwi rd ra imm => wordI 0x24#6 false true rd ra imm
  | .shrw sg rd ra rb => wordR 0x25#6 sg.bit false rd 0 ra rb 0
  | .shrwi sg rd ra imm => wordI 0x25#6 sg.bit true rd ra imm
  | .rol rd ra rb => wordR 0x26#6 false false rd 0 ra rb 0
  | .roli rd ra imm => wordI 0x26#6 false true rd ra imm
  | .ror rd ra rb => wordR 0x27#6 false false rd 0 ra rb 0
  | .rori rd ra imm => wordI 0x27#6 false true rd ra imm
  | .bget rd ra rb => wordR 0x28#6 false false rd 0 ra rb 0
  | .bgeti rd ra imm => wordI 0x28#6 false true rd ra imm
  | .bset rd ra rb => wordR 0x29#6 false false rd 0 ra rb 0
  | .bseti rd ra imm => wordI 0x29#6 false true rd ra imm
  | .bclr rd ra rb => wordR 0x2A#6 false false rd 0 ra rb 0
  | .bclri rd ra imm => wordI 0x2A#6 false true rd ra imm
  | .btgl rd ra rb => wordR 0x2B#6 false false rd 0 ra rb 0
  | .btgli rd ra imm => wordI 0x2B#6 false true rd ra imm

/-! ## The machine-readable opcode table (R86) -/

/-- One row of opcode_table.json: a word selects it when (w & mask) = match and, where the row says so, RD ≠ RE (R86). -/
structure TableRow where
  mnemonic : String
  pattern : CmdWord
  mask : CmdWord
  rdNeRe : Bool
deriving DecidableEq, Repr

/-- The row of opcode_table.json that stands for a command (R86). -/
def tableRow : Instr → TableRow
  | .wrw .. => ⟨"WRW", 0x04000000#32, 0xFF1F8000#32, false⟩
  | .rdw .. => ⟨"RDW", 0x08000000#32, 0xFFFC0000#32, false⟩
  | .seqb .. => ⟨"SEQB", 0x0C000000#32, 0xFC1FFFFF#32, false⟩
  | .seqw => ⟨"SEQW", 0x10000000#32, 0xFFFFFFFF#32, false⟩
  | .seqe => ⟨"SEQE", 0x14000000#32, 0xFFFFFFFF#32, false⟩
  | .fromwt .. => ⟨"FROMWT", 0x18000000#32, 0xFE1FFFFF#32, false⟩
  | .fromwc .. => ⟨"FROMWC", 0x1C000000#32, 0xFC1FFFFF#32, false⟩
  | .fromwe .. => ⟨"FROMWE", 0x20000000#32, 0xFC1FFFFF#32, false⟩
  | .add .. => ⟨"ADD", 0x40000000#32, 0xFD1C0FFF#32, false⟩
  | .sub .. => ⟨"SUB", 0x44000000#32, 0xFD1C0FFF#32, false⟩
  | .addd .. => ⟨"ADDD", 0x48000000#32, 0xFD1C0FFF#32, false⟩
  | .subd .. => ⟨"SUBD", 0x4C000000#32, 0xFD1C0FFF#32, false⟩
  | .mul .. => ⟨"MUL", 0x50000000#32, 0xFD1C0FFF#32, false⟩
  | .muld .. => ⟨"MULD", 0x58000000#32, 0xFD1C0FFF#32, false⟩
  | .mulfw .. => ⟨"MULFW", 0x54000000#32, 0xFD000FFF#32, true⟩
  | .mulfwd .. => ⟨"MULFWD", 0x5C000000#32, 0xFD000FFF#32, true⟩
  | .div .. => ⟨"DIV", 0x60000000#32, 0xFD000FFF#32, true⟩
  | .divfw .. => ⟨"DIVFW", 0x64000000#32, 0xFD0001FF#32, true⟩
  | .divd .. => ⟨"DIVD", 0x68000000#32, 0xFD000FFF#32, true⟩
  | .not .. => ⟨"NOT", 0x70000000#32, 0xFF1C7FFF#32, false⟩
  | .neg .. => ⟨"NEG", 0x71000000#32, 0xFD1C7FFF#32, false⟩
  | .mag .. => ⟨"MAG", 0x74000000#32, 0xFD1C7FFF#32, false⟩
  | .shl .. => ⟨"SHL", 0x80000000#32, 0xFD1C0FFF#32, false⟩
  | .shli .. => ⟨"SHLI", 0x81000000#32, 0xFF1C0000#32, false⟩
  | .shr .. => ⟨"SHR", 0x84000000#32, 0xFD1C0FFF#32, false⟩
  | .shri .. => ⟨"SHRI", 0x85000000#32, 0xFD1C0000#32, false⟩
  | .shlm .. => ⟨"SHLM", 0x88000000#32, 0xFF1C0FFF#32, false⟩
  | .shlmi .. => ⟨"SHLMI", 0x89000000#32, 0xFF1C0000#32, false⟩
  | .shrm .. => ⟨"SHRM", 0x8C000000#32, 0xFD1C0FFF#32, false⟩
  | .shrmi .. => ⟨"SHRMI", 0x8D000000#32, 0xFD1C0000#32, false⟩
  | .shlw .. => ⟨"SHLW", 0x90000000#32, 0xFF1C0FFF#32, false⟩
  | .shlwi .. => ⟨"SHLWI", 0x91000000#32, 0xFF1C0000#32, false⟩
  | .shrw .. => ⟨"SHRW", 0x94000000#32, 0xFD1C0FFF#32, false⟩
  | .shrwi .. => ⟨"SHRWI", 0x95000000#32, 0xFD1C0000#32, false⟩
  | .rol .. => ⟨"ROL", 0x98000000#32, 0xFF1C0FFF#32, false⟩
  | .roli .. => ⟨"ROLI", 0x99000000#32, 0xFF1C0000#32, false⟩
  | .ror .. => ⟨"ROR", 0x9C000000#32, 0xFF1C0FFF#32, false⟩
  | .rori .. => ⟨"RORI", 0x9D000000#32, 0xFF1C0000#32, false⟩
  | .bget .. => ⟨"BGET", 0xA0000000#32, 0xFF1C0FFF#32, false⟩
  | .bgeti .. => ⟨"BGETI", 0xA1000000#32, 0xFF1C0000#32, false⟩
  | .bset .. => ⟨"BSET", 0xA4000000#32, 0xFF1C0FFF#32, false⟩
  | .bseti .. => ⟨"BSETI", 0xA5000000#32, 0xFF1C0000#32, false⟩
  | .bclr .. => ⟨"BCLR", 0xA8000000#32, 0xFF1C0FFF#32, false⟩
  | .bclri .. => ⟨"BCLRI", 0xA9000000#32, 0xFF1C0000#32, false⟩
  | .btgl .. => ⟨"BTGL", 0xAC000000#32, 0xFF1C0FFF#32, false⟩
  | .btgli .. => ⟨"BTGLI", 0xAD000000#32, 0xFF1C0000#32, false⟩

/-- One command of every kind, in the order of R79. -/
def sampleInstrs : List Instr :=
  [ .wrw 0 0, .rdw 0 0, .seqb .u .u 0, .seqw, .seqe, .fromwt .u 0, .fromwc .u .u 0, .fromwe .u .u 0,
    .add .u 0 0 0, .sub .u 0 0 0, .addd .u 0 0 0, .subd .u 0 0 0, .mul .u 0 0 0, .muld .u 0 0 0,
    .mulfw .u 0 0 0 0, .mulfwd .u 0 0 0 0, .div .u 0 0 0 0, .divfw .u 0 0 0 0 0, .divd .u 0 0 0 0, .not 0 0,
    .neg .u 0 0, .mag .u 0 0, .shl .u 0 0 0, .shli 0 0 0, .shr .u 0 0 0, .shri .u 0 0 0, .shlm 0 0 0,
    .shlmi 0 0 0, .shrm .u 0 0 0, .shrmi .u 0 0 0, .shlw 0 0 0, .shlwi 0 0 0, .shrw .u 0 0 0, .shrwi .u 0 0 0,
    .rol 0 0 0, .roli 0 0 0, .ror 0 0 0, .rori 0 0 0, .bget 0 0 0, .bgeti 0 0 0, .bset 0 0 0, .bseti 0 0 0,
    .bclr 0 0 0, .bclri 0 0 0, .btgl 0 0 0, .btgli 0 0 0 ]

/-- opcode_table.json: 46 rows (R86). -/
def opcodeTable : List TableRow := sampleInstrs.map tableRow

/-- The word selects the row (R86). -/
def TableRow.selects (r : TableRow) (c : CmdWord) : Bool :=
  (c &&& r.mask) == r.pattern && (!r.rdNeRe || (fieldsOf c).rd != (fieldsOf c).re)

end Sys2Proof
end

