-- ==== Sys2Proof/Config.lean ====
section
/-! DEFINITION. What an implementation fixes (the parameters N, ENDIAN and BASE) and the one free value of the spec. -/

namespace Sys2Proof

/-- The physical order in which the storage holds the words of a value (R10). No interface observes it (R322). -/
inductive Endian where
  | little
  | big
deriving DecidableEq, Repr

/-- The parameters of an instance (R6, R10). Every value of this type is a legal instance: the word count is
2^(levels + 1), a power of two of at least 2, and the window address is a multiple of 32. -/
structure Config where
  /-- The number of halvings of a value before its halves are native words (R8). -/
  levels : Nat
  /-- ENDIAN (R10). No step reads it. -/
  endian : Endian
  /-- BASE / 32 (R53). No step reads it. -/
  window : Nat
deriving DecidableEq, Repr

/-- n, the number of 64-bit words of a value (R7). -/
def Config.words (c : Config) : Nat := 2 ^ (c.levels + 1)

/-- N, the width in bits of a value register (R6). -/
def Config.width (c : Config) : Nat := 64 * c.words

/-- BASE, the host address of the register window: a multiple of 32 (R53). -/
def Config.base (c : Config) : Nat := 32 * c.window

/-- DESIGN CHOICE (unsafe, log 1 and log 11): the instance that `State.reset` describes has N = 128, the least width,
ENDIAN = little and BASE = 0. The spec leaves the three open; statements quantify over every instance. -/
def Config.smallest : Config := { levels := 0, endian := .little, window := 0 }

/-- The unspecified value that the k-th host read of an invalid DATA returns (R25, I3): a free value, no body.
DESIGN CHOICE (safe, log 5): each such read draws afresh. -/
opaque Config.freeData : Nat → Word

end Sys2Proof
end

