-- ==== Sys2Proof/Machine/State.lean ====
section
/-! DEFINITION. The state of the block (R20), the host's accesses (R56), the fault causes (R401), the state after reset (R37),
and the reasons for which the step function itself stops. -/

namespace Sys2Proof.Machine

/-- The machine never stops with a fault: the spec's fault is a state the machine goes on in (R402, R404), entered by
`enterFault`, always with a next state. So this type has no constructor. Safe: no run is cut short by it. -/
inductive Fault where
deriving DecidableEq, Repr

/-- The reasons for which a step is refused. -/
inductive Refusal where
  /-- Raised by `exec` for a command that has no meaning in the model. No command is refused so. Safe. -/
  | notModelled (mnemonic : String)
  /-- Raised by a host access of another width, at a misaligned or unmapped offset, or of 32 bits to a half of DATA:
  "outside this spec … A model refuses it" (R54, I6). Safe: nothing is claimed of such a run. -/
  | unsupportedAccess
  /-- Raised when reset is asserted while a host access is outstanding, which the platform must not do: "A model gives
  reset no step while such an access is held" (R452, I7). Safe. -/
  | resetDuringAccess
deriving DecidableEq, Repr

/-- The fault causes of R401, codes 1 to 7. -/
inductive Cause where
  | illegalCmd
  | uninit
  | seqState
  | wordIndex
  | wordShiftRange
  | rotRange
  | bitIndex
deriving DecidableEq, Repr

/-- The width of a host access: the two that the window supports (R54), and any other. -/
inductive AccessWidth where
  | w32
  | w64
  | other (bits : Nat)
deriving DecidableEq, Repr

/-- A value on the host bus with its width. -/
inductive BusWord where
  | w32 (v : BitVec 32)
  | w64 (v : BitVec 64)
  | other (bits : Nat) (v : Nat)
deriving DecidableEq, Repr

/-- When the reset input is asserted (R452). -/
inductive ResetMoment where
  /-- No command runs and no access is outstanding. -/
  | idle
  /-- The command word c has been written to CMD and its command is running; no access is held. -/
  | commandRunning (c : CmdWord)
  /-- A host access is outstanding (I7). -/
  | accessOutstanding
deriving DecidableEq, Repr

/-- What the host and the platform do to the block: HostRead and HostWrite at a byte offset from BASE (R14, R53), and
reset events (R451). -/
inductive HostEvent where
  | read (offset : Nat) (width : AccessWidth)
  | write (offset : Nat) (value : BusWord)
  | reset (moment : ResetMoment)
deriving DecidableEq, Repr

/-- The state: the architectural state of R20, the instance's parameters, and the host's side of the window. -/
structure State where
  /-- N, ENDIAN and BASE: the instance, not state; no step writes it (R20; log 1). -/
  cfg : Config
  /-- V0 to V7: register r is a list of its n words, word 0 first. A word is `none` where VALID[r][k] = 0 and
  `some w` where it is 1 (R21, R24, R37; log 2). -/
  regs : Vector (List (Option Word)) 8
  /-- DATA: `none` where DATA_VALID = 0 (R25; log 2). -/
  data : Option Word
  /-- STATUS.OV (R27). -/
  ov : Bool
  /-- STATUS.NIL (R29). -/
  nil : Bool
  /-- STATUS.FAULT (R31). -/
  fault : Bool
  /-- STATUS.CAUSE (R31). -/
  cause : BitVec 4
  /-- FCMD (R32). -/
  fcmd : CmdWord
  /-- SEQ_OPEN, which is STATUS.SEQ (R34). -/
  seqOpen : Bool
  /-- SEQ_RD (R34). -/
  seqRd : Reg
  /-- SEQ_TS (R34); `u` is 0. -/
  seqTS : Sign
  /-- SEQ_SS (R34); `u` is 0. -/
  seqSS : Sign
  /-- SEQ_BUF, least significant word first (R34). -/
  seqBuf : List Word
  /-- The MODEL's own: what the host does from now on, first first (R460; log 3). -/
  hostIn : List HostEvent
  /-- The MODEL's own: the values that host reads have returned, newest first (log 4). -/
  hostOut : List BusWord
  /-- The MODEL's own: how many values reads of an invalid DATA have drawn (R25; log 5). -/
  draws : Nat
deriving DecidableEq, Repr

/-- The state of an instance right after reset (R37, R450), the host having issued nothing yet. -/
def State.resetOf (c : Config) : State :=
  { cfg := c, regs := Vector.replicate 8 (List.replicate c.words none), data := none,
    ov := false, nil := false, fault := false, cause := 0, fcmd := 0,
    seqOpen := false, seqRd := 0, seqTS := .u, seqSS := .u, seqBuf := [],
    hostIn := [], hostOut := [], draws := 0 }

/-- The machine right after reset, for the least instance (R37; log 1). -/
def State.reset : State := .resetOf .smallest

end Sys2Proof.Machine
end

