-- ==== Sys2Proof/Machine/Ops.lean ====
section
/-! DEFINITION. The named operations over the register-word space, DATA, STATUS and the staging state; taking a fault
(R402) and leaving the fault state (R450); and the shape of every command (R15, R403). -/

namespace Sys2Proof.Machine

/-! ## Bit patterns and their words (R11, R320) -/

/-- The value of a list of words, word k of weight 2^(64k) (R320). -/
def wordsVal : List Word → Nat
  | [] => 0
  | w :: ws => w.toNat + 2 ^ 64 * wordsVal ws

/-- The first n words of a pattern, word 0 first (R11). -/
def toWords : Nat → Nat → List Word
  | 0, _ => []
  | n + 1, x => BitVec.ofNat 64 x :: toWords n (x / 2 ^ 64)

/-- The words of a register all of whose words are valid (R24). -/
def allValid : List (Option Word) → Option (List Word)
  | [] => some []
  | none :: _ => none
  | some w :: ws => (allValid ws).map (w :: ·)

/-! ## Register words -/

/-- The words of register r with their valid bits (R21, R24). -/
def State.reg (s : State) (r : Reg) : List (Option Word) := s.regs[r.toNat]'r.isLt

/-- Register r holds these words; every other register is as before. -/
def State.setReg (s : State) (r : Reg) (ws : List (Option Word)) : State :=
  { s with regs := s.regs.set r.toNat ws r.isLt }

/-- V[r] as an N-bit pattern, or Fault(UNINIT) if any of its words is not valid (R14, R24). -/
def readV (N : Nat) (s : State) (r : Reg) : Except Cause (BitVec N) :=
  match allValid (s.reg r) with
  | some ws => .ok (BitVec.ofNat N (wordsVal ws))
  | none => .error .uninit

/-- V[r].word[k], or Fault(UNINIT) if that word is not valid (R14, R24). -/
def readWord (s : State) (r : Reg) (k : Nat) : Except Cause Word :=
  match (s.reg r)[k]? with
  | some (some w) => .ok w
  | _ => .error .uninit

/-- V[r] <- x: writes all n words and marks them valid (R14, R100). -/
def State.writeV {N : Nat} (s : State) (r : Reg) (x : BitVec N) : State :=
  s.setReg r ((toWords s.cfg.words x.toNat).map some)

/-- V[r].word[k] <- w: writes one word and marks it valid (R14, R324). -/
def State.writeWord (s : State) (r : Reg) (k : Nat) (w : Word) : State :=
  s.setReg r ((s.reg r).set k (some w))

/-! ## DATA, STATUS and the staging state -/

/-- DATA, or Fault(UNINIT) while DATA_VALID = 0 (R14, R25). -/
def readData (s : State) : Except Cause Word :=
  match s.data with
  | some w => .ok w
  | none => .error .uninit

/-- DATA <- w, valid (R14, R25). -/
def State.setData (s : State) (w : Word) : State := { s with data := some w }

/-- OV <- b (R27). -/
def State.setOV (s : State) (b : Bool) : State := { s with ov := b }

/-- NIL <- b (R29). -/
def State.setNIL (s : State) (b : Bool) : State := { s with nil := b }

/-- The STATUS register: bits 31:8 are hardwired 0 (R26). -/
def State.status (s : State) : BitVec 32 :=
  (0#24) ++ s.cause ++ BitVec.ofBool s.seqOpen ++ BitVec.ofBool s.fault ++ BitVec.ofBool s.nil ++ BitVec.ofBool s.ov

/-- Opens a sequence with nothing in it (R102). -/
def State.openSeq (s : State) (rd : Reg) (ts ss : Sign) : State :=
  { s with seqOpen := true, seqRd := rd, seqTS := ts, seqSS := ss, seqBuf := [] }

/-- Appends a word to the open sequence (R103). -/
def State.pushSeq (s : State) (w : Word) : State := { s with seqBuf := s.seqBuf ++ [w] }

/-- Closes the sequence and clears the staging state (R104). -/
def State.closeSeq (s : State) : State :=
  { s with seqOpen := false, seqRd := 0, seqTS := .u, seqSS := .u, seqBuf := [] }

/-! ## Faults -/

/-- The code of a cause in STATUS.CAUSE (R401). -/
def Cause.code : Cause → BitVec 4
  | .illegalCmd => 1
  | .uninit => 2
  | .seqState => 3
  | .wordIndex => 4
  | .wordShiftRange => 5
  | .rotRange => 6
  | .bitIndex => 7

/-- Taking a fault (R402): FAULT, CAUSE and FCMD are written, nothing else changes. -/
def enterFault (k : Cause) (c : CmdWord) (s : State) : State :=
  { s with fault := true, cause := k.code, fcmd := c }

/-- Leaving the fault state, which only reset does (R404, R407): the block's state is that of R37; what the host has
still to do and has already read is the host's and stays (log 22). -/
def State.afterReset (s : State) : State :=
  { State.resetOf s.cfg with hostIn := s.hostIn, hostOut := s.hostOut, draws := s.draws }

/-- raise Fault(k) unless the check holds (R14). -/
def check (ok : Bool) (k : Cause) : Except Cause Unit := if ok then .ok () else .error k

/-- The shape of every command (R15, R403): the body makes its checks, then gives the state after all of its writes; a
command that faults writes nothing but the fault state, with its own word in FCMD (log 6). -/
def command (i : Instr) (s : State) (body : Except Cause State) : Host.Outcome State Fault Refusal :=
  match body with
  | .ok t => .next t
  | .error k => .next (enterFault k (encode i) s)

end Sys2Proof.Machine
end

