-- ==== Sys2Proof/Machine/Flags.lean ====
section
/-! DEFINITION. The readings of a pattern as an integer and back (R12), the range of a width and signedness, and the
overflow and absence flags (R12, R27, R29). -/

namespace Sys2Proof.Machine

/-- val_S(x): sval when S = 1, uval when S = 0 (R12). -/
def val {N : Nat} (sg : Sign) (x : BitVec N) : Int :=
  match sg with
  | .u => (x.toNat : Int)
  | .s => x.toInt

/-- bits_N(v): the N-bit pattern of v mod 2^N (R12). -/
def bits (N : Nat) (v : Int) : BitVec N := BitVec.ofInt N v

/-- min_S at width M (R12). -/
def minS (M : Nat) : Sign → Int
  | .u => 0
  | .s => -(2 ^ (M - 1) : Nat)

/-- max_S at width M (R12). -/
def maxS (M : Nat) : Sign → Int
  | .u => (2 ^ M : Nat) - 1
  | .s => (2 ^ (M - 1) : Nat) - 1

/-- rep_(S,M)(v): v is representable at width M with signedness S (R12). -/
def rep (M : Nat) (sg : Sign) (v : Int) : Bool := decide (minS M sg ≤ v ∧ v ≤ maxS M sg)

/-- The overflow flag of an exact result: it is outside the range (R130 and the rules like it). -/
def overflow (M : Nat) (sg : Sign) (v : Int) : Bool := !rep M sg v

/-- The overflow flag of the negator with carry 1: the operand is the type's minimum (R231, C10). -/
def negOverflow {N : Nat} (sg : Sign) (x : BitVec N) : Bool := x == bits N (minS N sg)

/-- V[rd] <- bits_N(t); OV <- not rep_S(t): the end of every overflow-reporting command with one result. -/
def State.writeResult (s : State) (sg : Sign) (rd : Reg) (t : Int) : State :=
  (s.writeV rd (bits s.cfg.width t)).setOV (overflow s.cfg.width sg t)

/-- The end of a construction that may be absent: the value and NIL <- 0 where it is representable, else only
NIL <- 1 (R29, R104, R107). -/
def State.writeOptional (s : State) (sg : Sign) (rd : Reg) (v : Int) : State :=
  if rep s.cfg.width sg v then (s.writeV rd (bits s.cfg.width v)).setNIL false else s.setNIL true

end Sys2Proof.Machine
end

