-- ==== Sys2Proof/Machine/Operands.lean ====
section
/-! DEFINITION. Every operand form of the commands (R73 to R77). A register operand V[r] is `readV` of Ops.lean. -/

namespace Sys2Proof.Machine

/-- val_S(V[r]) at the instance's width (R12, R73). -/
def readVal (s : State) (sg : Sign) (r : Reg) : Except Cause Int := do
  let x ← readV s.cfg.width s r
  .ok (val sg x)

/-- The Digit operand: word 0 of V[r], signed when S = 1 (R77). -/
def readDigit (s : State) (sg : Sign) (r : Reg) : Except Cause Int := do
  let w ← readWord s r 0
  .ok (val sg w)

/-- The distance, count or index in a register: sval_64 of word 0 of V[r] (R76). -/
def readDist (s : State) (r : Reg) : Except Cause Int := do
  let w ← readWord s r 0
  .ok w.toInt

/-- The DATA operand as an integer of the given signedness: dval_X(DATA) (R12, R105). -/
def readDataVal (s : State) (sg : Sign) : Except Cause Int := do
  let w ← readData s
  .ok (val sg w)

/-- The immediate: zero-extended, not scaled (R75). -/
def immVal (imm : Imm15) : Int := (imm.toNat : Int)

/-- 0 <= d < bound (R300 and the range checks of R263 to R270). -/
def inRange (d : Int) (bound : Nat) : Bool := decide (0 ≤ d ∧ d < (bound : Int))

end Sys2Proof.Machine
end

