-- ==== Sys2Proof/Machine/AddSub.lean ====
section
/-! DEFINITION. Addition and subtraction: ADD, SUB, ADDD, SUBD (R130 to R136). -/

namespace Sys2Proof.Machine

/-- ADD (R130). -/
def execAdd (sg : Sign) (rd ra rb : Reg) (s : State) : Host.Outcome State Fault Refusal :=
  command (.add sg rd ra rb) s do
    let a ← readVal s sg ra
    let b ← readVal s sg rb
    .ok (s.writeResult sg rd (a + b))

/-- SUB (R132). -/
def execSub (sg : Sign) (rd ra rb : Reg) (s : State) : Host.Outcome State Fault Refusal :=
  command (.sub sg rd ra rb) s do
    let a ← readVal s sg ra
    let b ← readVal s sg rb
    .ok (s.writeResult sg rd (a - b))

/-- ADDD (R134). -/
def execAddd (sg : Sign) (rd ra rb : Reg) (s : State) : Host.Outcome State Fault Refusal :=
  command (.addd sg rd ra rb) s do
    let a ← readVal s sg ra
    let d ← readDigit s sg rb
    .ok (s.writeResult sg rd (a + d))

/-- SUBD (R136, C7). -/
def execSubd (sg : Sign) (rd ra rb : Reg) (s : State) : Host.Outcome State Fault Refusal :=
  command (.subd sg rd ra rb) s do
    let a ← readVal s sg ra
    let d ← readDigit s sg rb
    .ok (s.writeResult sg rd (a - d))

end Sys2Proof.Machine
end

