-- ==== Sys2Proof/Machine/Bit.lean ====
section
/-! DEFINITION. Bit access through the bit-index-to-word translator (R300 to R308). No command of this file writes OV or NIL. -/

namespace Sys2Proof.Machine

/-- The translator: (wordIndex, bitOffsetWithinWord) of a bit index (R300). -/
def bitAddr (i : Nat) : Nat × Nat := (i / 64, i % 64)

/-- The word wi of a pattern (R11). -/
def wordAt {N : Nat} (x : BitVec N) (wi : Nat) : Word := x.extractLsb' (64 * wi) 64

/-- Bit (wi, bo) of a pattern (R300). -/
def bitAt {N : Nat} (x : BitVec N) (a : Nat × Nat) : Bool := (wordAt x a.1).getLsbD a.2

/-- A word with its bit bo made b and every other bit as it was. -/
def putBit (w : Word) (bo : Nat) (b : Bool) : Word :=
  if b then w ||| BitVec.twoPow 64 bo else w &&& ~~~(BitVec.twoPow 64 bo)

/-- y := x; y.word[wi][bo] := b, every other bit and word copied unchanged (R303). -/
def setBitAt {N : Nat} (x : BitVec N) (a : Nat × Nat) (b : Bool) : BitVec N :=
  BitVec.ofNat N (wordsVal ((toWords (N / 64) x.toNat).modify a.1 (fun w => putBit w a.2 b)))

/-- The body of a bit access: read V[ra] and the index, check the index (R300: UNINIT first, then BIT_INDEX), write V[rd]. -/
def bitBody (s : State) (rd ra : Reg) (index : Except Cause Int)
    (f : BitVec s.cfg.width → Nat × Nat → BitVec s.cfg.width) : Except Cause State := do
  let x ← readV s.cfg.width s ra
  let i ← index
  check (inRange i s.cfg.width) .bitIndex
  .ok (s.writeV rd (f x (bitAddr i.toNat)))

/-- The bit as the value 0 or 1 of a full register (R301, D42). -/
def getBit {N : Nat} (x : BitVec N) (a : Nat × Nat) : BitVec N := if bitAt x a then 1 else 0

/-- The bit made 1 (R303). -/
def setBit {N : Nat} (x : BitVec N) (a : Nat × Nat) : BitVec N := setBitAt x a true

/-- The bit made 0 (R305). -/
def clearBit {N : Nat} (x : BitVec N) (a : Nat × Nat) : BitVec N := setBitAt x a false

/-- The bit inverted (R307). -/
def toggleBit {N : Nat} (x : BitVec N) (a : Nat × Nat) : BitVec N := setBitAt x a (!bitAt x a)

/-- BGET (R301). -/
def execBget (rd ra rb : Reg) (s : State) : Host.Outcome State Fault Refusal :=
  command (.bget rd ra rb) s (bitBody s rd ra (readDist s rb) getBit)

/-- BGETI (R302). -/
def execBgeti (rd ra : Reg) (imm : Imm15) (s : State) : Host.Outcome State Fault Refusal :=
  command (.bgeti rd ra imm) s (bitBody s rd ra (.ok (immVal imm)) getBit)

/-- BSET (R303). -/
def execBset (rd ra rb : Reg) (s : State) : Host.Outcome State Fault Refusal :=
  command (.bset rd ra rb) s (bitBody s rd ra (readDist s rb) setBit)

/-- BSETI (R304). -/
def execBseti (rd ra : Reg) (imm : Imm15) (s : State) : Host.Outcome State Fault Refusal :=
  command (.bseti rd ra imm) s (bitBody s rd ra (.ok (immVal imm)) setBit)

/-- BCLR (R305). -/
def execBclr (rd ra rb : Reg) (s : State) : Host.Outcome State Fault Refusal :=
  command (.bclr rd ra rb) s (bitBody s rd ra (readDist s rb) clearBit)

/-- BCLRI (R306). -/
def execBclri (rd ra : Reg) (imm : Imm15) (s : State) : Host.Outcome State Fault Refusal :=
  command (.bclri rd ra imm) s (bitBody s rd ra (.ok (immVal imm)) clearBit)

/-- BTGL (R307). -/
def execBtgl (rd ra rb : Reg) (s : State) : Host.Outcome State Fault Refusal :=
  command (.btgl rd ra rb) s (bitBody s rd ra (readDist s rb) toggleBit)

/-- BTGLI (R308). -/
def execBtgli (rd ra : Reg) (imm : Imm15) (s : State) : Host.Outcome State Fault Refusal :=
  command (.btgli rd ra imm) s (bitBody s rd ra (.ok (immVal imm)) toggleBit)

end Sys2Proof.Machine
end

