-- ==== Sys2Proof/Machine/Construct.lean ====
section
/-! DEFINITION. Construction from words: SEQB, SEQW, SEQE, FROMWT, FROMWC, FROMWE (R100 to R107). -/

namespace Sys2Proof.Machine

/-- seqval (R101): the words as one 64·L-bit pattern, read with the source signedness; 0 for no word. -/
def seqval (buf : List Word) (ss : Sign) : Int :=
  val ss (BitVec.ofNat (64 * buf.length) (wordsVal buf))

/-- Construction of a value clamped to the target's range (R106). -/
def clamp (N : Nat) (ts : Sign) (v : Int) : Int := min (max v (minS N ts)) (maxS N ts)

/-- SEQB (R102). -/
def execSeqb (ts ss : Sign) (rd : Reg) (s : State) : Host.Outcome State Fault Refusal :=
  command (.seqb ts ss rd) s (.ok (s.openSeq rd ts ss))

/-- SEQW (R103). -/
def execSeqw (s : State) : Host.Outcome State Fault Refusal :=
  command .seqw s do
    check s.seqOpen .seqState
    let w ← readData s
    .ok (s.pushSeq w)

/-- SEQE (R104). -/
def execSeqe (s : State) : Host.Outcome State Fault Refusal :=
  command .seqe s do
    check s.seqOpen .seqState
    .ok (s.writeOptional s.seqTS s.seqRd (seqval s.seqBuf s.seqSS)).closeSeq

/-- FROMWT (R105). -/
def execFromwt (ss : Sign) (rd : Reg) (s : State) : Host.Outcome State Fault Refusal :=
  command (.fromwt ss rd) s do
    let v ← readDataVal s ss
    .ok (s.writeV rd (bits s.cfg.width v))

/-- FROMWC (R106). -/
def execFromwc (ts ss : Sign) (rd : Reg) (s : State) : Host.Outcome State Fault Refusal :=
  command (.fromwc ts ss rd) s do
    let v ← readDataVal s ss
    .ok (s.writeV rd (bits s.cfg.width (clamp s.cfg.width ts v)))

/-- FROMWE (R107). -/
def execFromwe (ts ss : Sign) (rd : Reg) (s : State) : Host.Outcome State Fault Refusal :=
  command (.fromwe ts ss rd) s do
    let v ← readDataVal s ss
    .ok (s.writeOptional ts rd v)

end Sys2Proof.Machine
end

