-- ==== Sys2Proof/Machine/Divide.lean ====
section
/-! DEFINITION. Division: DIV, DIVD, DIVFW (R190 to R192). Division truncates toward zero (R13); a zero divisor and an
unrepresentable quotient set OV and have defined partial results (D13 to D15). -/

namespace Sys2Proof.Machine

/-- The quotient to V[rd], the remainder to V[re], and OV. -/
def State.writeQR (s : State) (rd re : Reg) (q r : Int) (ovf : Bool) : State :=
  ((s.writeV rd (bits s.cfg.width q)).writeV re (bits s.cfg.width r)).setOV ovf

/-- Quotient, remainder and overflow of a by b at width N, where a zero divisor gives the remainder r0 (R190, R191). -/
def divide (N : Nat) (sg : Sign) (a b r0 : Int) : Int × Int × Bool :=
  if b = 0 then (a, r0, true)
  else if sg = .s ∧ a = minS N .s ∧ b = -1 then (minS N .s, 0, true)
  else (Int.tdiv a b, Int.tmod a b, false)

/-- DIV (R190). -/
def execDiv (sg : Sign) (rd re ra rb : Reg) (s : State) : Host.Outcome State Fault Refusal :=
  command (.div sg rd re ra rb) s do
    check (rd != re) .illegalCmd
    let a ← readVal s sg ra
    let b ← readVal s sg rb
    let (q, r, ovf) := divide s.cfg.width sg a b a
    .ok (s.writeQR rd re q r ovf)

/-- DIVD (R191): with a zero divisor the remainder is the dividend truncated to a Digit (D14). -/
def execDivd (sg : Sign) (rd re ra rb : Reg) (s : State) : Host.Outcome State Fault Refusal :=
  command (.divd sg rd re ra rb) s do
    check (rd != re) .illegalCmd
    let a ← readVal s sg ra
    let a0 ← readDigit s sg ra
    let d ← readDigit s sg rb
    let (q, r, ovf) := divide s.cfg.width sg a d a0
    .ok (s.writeQR rd re q r ovf)

/-- DIVFW (R192, C3): the dividend is V[ra]·2^N + V[rb], the divisor V[rc]. -/
def execDivfw (sg : Sign) (rd re ra rb rc : Reg) (s : State) : Host.Outcome State Fault Refusal :=
  command (.divfw sg rd re ra rb rc) s do
    check (rd != re) .illegalCmd
    let hi ← readVal s sg ra
    let lo ← readVal s .u rb
    let b ← readVal s sg rc
    let D := hi * (2 ^ s.cfg.width : Nat) + lo
    .ok (if b = 0 then s.writeQR rd re lo lo true
      else s.writeQR rd re (Int.tdiv D b) (Int.tmod D b) (overflow s.cfg.width sg (Int.tdiv D b)))

end Sys2Proof.Machine
end

