-- ==== Sys2Proof/Machine/Multiply.lean ====
section
/-! DEFINITION. Multiplication: MUL, MULD, MULFW, MULFWD (R160 to R166). -/

namespace Sys2Proof.Machine

/-- MUL (R160). -/
def execMul (sg : Sign) (rd ra rb : Reg) (s : State) : Host.Outcome State Fault Refusal :=
  command (.mul sg rd ra rb) s do
    let a ← readVal s sg ra
    let b ← readVal s sg rb
    .ok (s.writeResult sg rd (a * b))

/-- MULD (R165). -/
def execMuld (sg : Sign) (rd ra rb : Reg) (s : State) : Host.Outcome State Fault Refusal :=
  command (.muld sg rd ra rb) s do
    let a ← readVal s sg ra
    let d ← readDigit s sg rb
    .ok (s.writeResult sg rd (a * d))

/-- The low part to V[rd], the high part, P div 2^N by floor division, to V[re] (R163, R166). -/
def State.writeProduct (s : State) (rd re : Reg) (P : Int) : State :=
  (s.writeV rd (bits s.cfg.width P)).writeV re (bits s.cfg.width (P / (2 ^ s.cfg.width : Nat)))

/-- MULFW (R163). OV is not written (D16). -/
def execMulfw (sg : Sign) (rd re ra rb : Reg) (s : State) : Host.Outcome State Fault Refusal :=
  command (.mulfw sg rd re ra rb) s do
    check (rd != re) .illegalCmd
    let a ← readVal s sg ra
    let b ← readVal s sg rb
    .ok (s.writeProduct rd re (a * b))

/-- MULFWD (R166). OV is not written (D16). -/
def execMulfwd (sg : Sign) (rd re ra rb : Reg) (s : State) : Host.Outcome State Fault Refusal :=
  command (.mulfwd sg rd re ra rb) s do
    check (rd != re) .illegalCmd
    let a ← readVal s sg ra
    let d ← readDigit s sg rb
    .ok (s.writeProduct rd re (a * d))

end Sys2Proof.Machine
end

