-- ==== Sys2Proof/Machine/Shift.lean ====
section
/-! DEFINITION. Shifts and rotations (R250 to R270). No command of this file writes OV or NIL. -/

namespace Sys2Proof.Machine

/-! ## Shared functions -/

/-- lsh(x, k) for 0 <= k < N (R251). -/
def lsh {N : Nat} (x : BitVec N) (k : Nat) : BitVec N := bits N ((x.toNat : Int) * (2 ^ k : Nat))

/-- rsh_S(x, k) for 0 <= k < N: floor division (R252). -/
def rsh {N : Nat} (sg : Sign) (x : BitVec N) (k : Nat) : BitVec N := bits N (val sg x / (2 ^ k : Nat))

/-- fill_S(x): all-ones where x is negative under S, else 0 (R253). -/
def fill {N : Nat} (sg : Sign) (x : BitVec N) : BitVec N :=
  if sg = .s ∧ x.msb = true then BitVec.allOnes N else 0

/-- smartL_S for a distance that is not negative (R253). -/
def smartLeftBy {N : Nat} (x : BitVec N) (k : Nat) : BitVec N := if N ≤ k then 0 else lsh x k

/-- smartR_S for a distance that is not negative (R253). -/
def smartRightBy {N : Nat} (sg : Sign) (x : BitVec N) (k : Nat) : BitVec N := if N ≤ k then fill sg x else rsh sg x k

/-- smartL_S(x, d): a negative distance shifts the other way by |d| (R253, C4). -/
def smartL {N : Nat} (sg : Sign) (x : BitVec N) (d : Int) : BitVec N :=
  if d < 0 then smartRightBy sg x (-d).toNat else smartLeftBy x d.toNat

/-- smartR_S(x, d) (R253, C4). -/
def smartR {N : Nat} (sg : Sign) (x : BitVec N) (d : Int) : BitVec N :=
  if d < 0 then smartLeftBy x (-d).toNat else smartRightBy sg x d.toNat

/-- A distance reduced to its non-negative residue mod N (R259, D18). -/
def maskDist (N : Nat) (d : Int) : Nat := (d % (N : Int)).toNat

/-- rotl(x, k) for 0 <= k < N (R254). -/
def rotl {N : Nat} (x : BitVec N) (k : Nat) : BitVec N := if k = 0 then x else lsh x k ||| rsh .u x (N - k)

/-- rotr(x, k) for 0 <= k < N (R254). -/
def rotr {N : Nat} (x : BitVec N) (k : Nat) : BitVec N := rotl x ((N - k) % N)

/-- The body of a shift or rotation: read V[ra] and the distance, check the distance's range where the command has one
(R405: UNINIT first), write V[rd]. -/
def shiftBody (s : State) (rd ra : Reg) (dist : Except Cause Int) (guard : Int → Except Cause Unit)
    (f : BitVec s.cfg.width → Int → BitVec s.cfg.width) : Except Cause State := do
  let x ← readV s.cfg.width s ra
  let d ← dist
  guard d
  .ok (s.writeV rd (f x d))

/-- No range check: smart and masking shifts take any distance (R417). -/
def noGuard (_ : Int) : Except Cause Unit := .ok ()

/-- The count of a word shift is in [0, n), else Fault(WORD_SHIFT_RANGE) (R414). -/
def wordGuard (s : State) (d : Int) : Except Cause Unit := check (inRange d s.cfg.words) .wordShiftRange

/-- The distance of a rotation is in [0, N), else Fault(ROT_RANGE) (R415). -/
def rotGuard (s : State) (d : Int) : Except Cause Unit := check (inRange d s.cfg.width) .rotRange

/-! ## Smart shifts -/

/-- SHL (R255). -/
def execShl (sg : Sign) (rd ra rb : Reg) (s : State) : Host.Outcome State Fault Refusal :=
  command (.shl sg rd ra rb) s (shiftBody s rd ra (readDist s rb) noGuard (smartL sg))

/-- SHLI (R256). -/
def execShli (rd ra : Reg) (imm : Imm15) (s : State) : Host.Outcome State Fault Refusal :=
  command (.shli rd ra imm) s (shiftBody s rd ra (.ok (immVal imm)) noGuard (smartL .u))

/-- SHR (R257). -/
def execShr (sg : Sign) (rd ra rb : Reg) (s : State) : Host.Outcome State Fault Refusal :=
  command (.shr sg rd ra rb) s (shiftBody s rd ra (readDist s rb) noGuard (smartR sg))

/-- SHRI (R258). -/
def execShri (sg : Sign) (rd ra : Reg) (imm : Imm15) (s : State) : Host.Outcome State Fault Refusal :=
  command (.shri sg rd ra imm) s (shiftBody s rd ra (.ok (immVal imm)) noGuard (smartR sg))

/-! ## Masking shifts -/

/-- SHLM (R259). -/
def execShlm (rd ra rb : Reg) (s : State) : Host.Outcome State Fault Refusal :=
  command (.shlm rd ra rb) s
    (shiftBody s rd ra (readDist s rb) noGuard (fun x d => lsh x (maskDist s.cfg.width d)))

/-- SHLMI (R260). -/
def execShlmi (rd ra : Reg) (imm : Imm15) (s : State) : Host.Outcome State Fault Refusal :=
  command (.shlmi rd ra imm) s
    (shiftBody s rd ra (.ok (immVal imm)) noGuard (fun x d => lsh x (maskDist s.cfg.width d)))

/-- SHRM (R261). -/
def execShrm (sg : Sign) (rd ra rb : Reg) (s : State) : Host.Outcome State Fault Refusal :=
  command (.shrm sg rd ra rb) s
    (shiftBody s rd ra (readDist s rb) noGuard (fun x d => rsh sg x (maskDist s.cfg.width d)))

/-- SHRMI (R262). -/
def execShrmi (sg : Sign) (rd ra : Reg) (imm : Imm15) (s : State) : Host.Outcome State Fault Refusal :=
  command (.shrmi sg rd ra imm) s
    (shiftBody s rd ra (.ok (immVal imm)) noGuard (fun x d => rsh sg x (maskDist s.cfg.width d)))

/-! ## Word shifts -/

/-- SHLW (R263). -/
def execShlw (rd ra rb : Reg) (s : State) : Host.Outcome State Fault Refusal :=
  command (.shlw rd ra rb) s
    (shiftBody s rd ra (readDist s rb) (wordGuard s) (fun x c => lsh x (64 * c.toNat)))

/-- SHLWI (R264). -/
def execShlwi (rd ra : Reg) (imm : Imm15) (s : State) : Host.Outcome State Fault Refusal :=
  command (.shlwi rd ra imm) s
    (shiftBody s rd ra (.ok (immVal imm)) (wordGuard s) (fun x c => lsh x (64 * c.toNat)))

/-- SHRW (R265). -/
def execShrw (sg : Sign) (rd ra rb : Reg) (s : State) : Host.Outcome State Fault Refusal :=
  command (.shrw sg rd ra rb) s
    (shiftBody s rd ra (readDist s rb) (wordGuard s) (fun x c => rsh sg x (64 * c.toNat)))

/-- SHRWI (R266). -/
def execShrwi (sg : Sign) (rd ra : Reg) (imm : Imm15) (s : State) : Host.Outcome State Fault Refusal :=
  command (.shrwi sg rd ra imm) s
    (shiftBody s rd ra (.ok (immVal imm)) (wordGuard s) (fun x c => rsh sg x (64 * c.toNat)))

/-! ## Rotations -/

/-- ROL (R267). -/
def execRol (rd ra rb : Reg) (s : State) : Host.Outcome State Fault Refusal :=
  command (.rol rd ra rb) s (shiftBody s rd ra (readDist s rb) (rotGuard s) (fun x d => rotl x d.toNat))

/-- ROLI (R268). -/
def execRoli (rd ra : Reg) (imm : Imm15) (s : State) : Host.Outcome State Fault Refusal :=
  command (.roli rd ra imm) s (shiftBody s rd ra (.ok (immVal imm)) (rotGuard s) (fun x d => rotl x d.toNat))

/-- ROR (R269). -/
def execRor (rd ra rb : Reg) (s : State) : Host.Outcome State Fault Refusal :=
  command (.ror rd ra rb) s (shiftBody s rd ra (readDist s rb) (rotGuard s) (fun x d => rotr x d.toNat))

/-- RORI (R270). -/
def execRori (rd ra : Reg) (imm : Imm15) (s : State) : Host.Outcome State Fault Refusal :=
  command (.rori rd ra imm) s (shiftBody s rd ra (.ok (immVal imm)) (rotGuard s) (fun x d => rotr x d.toNat))

end Sys2Proof.Machine
end

