-- ==== Sys2Proof/Machine/SignOps.lean ====
section
/-! DEFINITION. Sign, two's complement and magnitude: NOT, NEG, MAG (R230 to R233). -/

namespace Sys2Proof.Machine

/-- NOT (R230): OV is always written 0. -/
def execNot (rd ra : Reg) (s : State) : Host.Outcome State Fault Refusal :=
  command (.not rd ra) s do
    let x ← readV s.cfg.width s ra
    .ok ((s.writeV rd (~~~x)).setOV false)

/-- NEG (R231, C10). -/
def execNeg (sg : Sign) (rd ra : Reg) (s : State) : Host.Outcome State Fault Refusal :=
  command (.neg sg rd ra) s do
    let x ← readV s.cfg.width s ra
    .ok ((s.writeV rd (bits s.cfg.width (-(val .u x)))).setOV (negOverflow sg x))

/-- MAG (R233): no flag is written. -/
def execMag (sg : Sign) (rd ra : Reg) (s : State) : Host.Outcome State Fault Refusal :=
  command (.mag sg rd ra) s do
    let v ← readVal s sg ra
    .ok (s.writeV rd (bits s.cfg.width (v.natAbs : Int)))

end Sys2Proof.Machine
end

