-- ==== Sys2Proof/Machine/WordAccess.lean ====
section
/-! DEFINITION. Word access, WRW and RDW (R324, R325), and the normalizer's index translations (R321, R323). -/

namespace Sys2Proof.Machine

/-- The byte position of logical word k in the storage of a value: p0 + σ·8k (R321). No command calls it (R322). -/
def physicalOffset (c : Config) (k : Nat) : Int :=
  match c.endian with
  | .little => 8 * (k : Int)
  | .big => 8 * ((c.words : Int) - 1) - 8 * (k : Int)

/-- The twin-headed index (i xor m) + (L and m), with the mask m = 0 forward and m = −1 (all-ones) backward, on
64-bit two's-complement integers (R323, informative). No command calls it. -/
def twin (L : Nat) (backward : Bool) (i : Nat) : BitVec 64 :=
  let m : BitVec 64 := if backward then BitVec.allOnes 64 else 0
  (BitVec.ofNat 64 i ^^^ m) + (BitVec.ofNat 64 L &&& m)

/-- The word index is below n, else Fault(WORD_INDEX), before any UNINIT (R405, R413). -/
def wordIndexGuard (s : State) (imm : Imm15) : Except Cause Unit :=
  check (decide (imm.toNat < s.cfg.words)) .wordIndex

/-- WRW (R324). -/
def execWrw (rd : Reg) (imm : Imm15) (s : State) : Host.Outcome State Fault Refusal :=
  command (.wrw rd imm) s do
    wordIndexGuard s imm
    let w ← readData s
    .ok (s.writeWord rd imm.toNat w)

/-- RDW (R325). -/
def execRdw (ra : Reg) (imm : Imm15) (s : State) : Host.Outcome State Fault Refusal :=
  command (.rdw ra imm) s do
    wordIndexGuard s imm
    let w ← readWord s ra imm.toNat
    .ok (s.setData w)

end Sys2Proof.Machine
end

