-- ==== Sys2Proof/Machine/Dispatch.lean ====
section
/-! DEFINITION. exec: one arm per command, one direct call of its meaning. -/

namespace Sys2Proof.Machine

def exec (i : Instr) (s : State) : Host.Outcome State Fault Refusal :=
  match i with
  | .wrw rd imm => Sys2Proof.Machine.execWrw rd imm s
  | .rdw ra imm => Sys2Proof.Machine.execRdw ra imm s
  | .seqb ts ss rd => Sys2Proof.Machine.execSeqb ts ss rd s
  | .seqw => Sys2Proof.Machine.execSeqw s
  | .seqe => Sys2Proof.Machine.execSeqe s
  | .fromwt ss rd => Sys2Proof.Machine.execFromwt ss rd s
  | .fromwc ts ss rd => Sys2Proof.Machine.execFromwc ts ss rd s
  | .fromwe ts ss rd => Sys2Proof.Machine.execFromwe ts ss rd s
  | .add sg rd ra rb => Sys2Proof.Machine.execAdd sg rd ra rb s
  | .sub sg rd ra rb => Sys2Proof.Machine.execSub sg rd ra rb s
  | .addd sg rd ra rb => Sys2Proof.Machine.execAddd sg rd ra rb s
  | .subd sg rd ra rb => Sys2Proof.Machine.execSubd sg rd ra rb s
  | .mul sg rd ra rb => Sys2Proof.Machine.execMul sg rd ra rb s
  | .muld sg rd ra rb => Sys2Proof.Machine.execMuld sg rd ra rb s
  | .mulfw sg rd re ra rb => Sys2Proof.Machine.execMulfw sg rd re ra rb s
  | .mulfwd sg rd re ra rb => Sys2Proof.Machine.execMulfwd sg rd re ra rb s
  | .div sg rd re ra rb => Sys2Proof.Machine.execDiv sg rd re ra rb s
  | .divfw sg rd re ra rb rc => Sys2Proof.Machine.execDivfw sg rd re ra rb rc s
  | .divd sg rd re ra rb => Sys2Proof.Machine.execDivd sg rd re ra rb s
  | .not rd ra => Sys2Proof.Machine.execNot rd ra s
  | .neg sg rd ra => Sys2Proof.Machine.execNeg sg rd ra s
  | .mag sg rd ra => Sys2Proof.Machine.execMag sg rd ra s
  | .shl sg rd ra rb => Sys2Proof.Machine.execShl sg rd ra rb s
  | .shli rd ra imm => Sys2Proof.Machine.execShli rd ra imm s
  | .shr sg rd ra rb => Sys2Proof.Machine.execShr sg rd ra rb s
  | .shri sg rd ra imm => Sys2Proof.Machine.execShri sg rd ra imm s
  | .shlm rd ra rb => Sys2Proof.Machine.execShlm rd ra rb s
  | .shlmi rd ra imm => Sys2Proof.Machine.execShlmi rd ra imm s
  | .shrm sg rd ra rb => Sys2Proof.Machine.execShrm sg rd ra rb s
  | .shrmi sg rd ra imm => Sys2Proof.Machine.execShrmi sg rd ra imm s
  | .shlw rd ra rb => Sys2Proof.Machine.execShlw rd ra rb s
  | .shlwi rd ra imm => Sys2Proof.Machine.execShlwi rd ra imm s
  | .shrw sg rd ra rb => Sys2Proof.Machine.execShrw sg rd ra rb s
  | .shrwi sg rd ra imm => Sys2Proof.Machine.execShrwi sg rd ra imm s
  | .rol rd ra rb => Sys2Proof.Machine.execRol rd ra rb s
  | .roli rd ra imm => Sys2Proof.Machine.execRoli rd ra imm s
  | .ror rd ra rb => Sys2Proof.Machine.execRor rd ra rb s
  | .rori rd ra imm => Sys2Proof.Machine.execRori rd ra imm s
  | .bget rd ra rb => Sys2Proof.Machine.execBget rd ra rb s
  | .bgeti rd ra imm => Sys2Proof.Machine.execBgeti rd ra imm s
  | .bset rd ra rb => Sys2Proof.Machine.execBset rd ra rb s
  | .bseti rd ra imm => Sys2Proof.Machine.execBseti rd ra imm s
  | .bclr rd ra rb => Sys2Proof.Machine.execBclr rd ra rb s
  | .bclri rd ra imm => Sys2Proof.Machine.execBclri rd ra imm s
  | .btgl rd ra rb => Sys2Proof.Machine.execBtgl rd ra rb s
  | .btgli rd ra imm => Sys2Proof.Machine.execBtgli rd ra imm s

end Sys2Proof.Machine
end

