-- ==== Sys2Proof/Machine/HostPort.lean ====
section
/-! DEFINITION. The host's side of the block: the register window (R53 to R59), what it does while FAULT = 1 (R404), and
reset (R450 to R452). -/

namespace Sys2Proof.Machine

/-- The byte offsets of the window (R53). -/
inductive WindowWord where
  | cmd
  | status
  | fcmd
  | reserved
deriving DecidableEq, Repr

/-- The 32-bit word at an offset, where the window has one (R53). DATA, at 0x08, is no 32-bit word (R54). -/
def window32 (offset : Nat) : Option WindowWord :=
  if offset = 0x00 then some .cmd
  else if offset = 0x10 then some .status
  else if offset = 0x18 then some .fcmd
  else if offset = 0x04 ∨ offset = 0x14 ∨ offset = 0x1C then some .reserved
  else none

/-- A host write of c to CMD (R56): ignored while FAULT = 1, not even decoded (R404); else the decoded command runs, or
an illegal word raises Fault(ILLEGAL_CMD) (R411). -/
def writeCmd (c : CmdWord) (s : State) : Host.Outcome State Fault Refusal :=
  if s.fault then .next s
  else
    match decode c with
    | .ok i => exec i s
    | .error _ => .next (enterFault .illegalCmd c s)

/-- A host write to DATA (R25, R56): ignored while FAULT = 1 (R404). -/
def writeData (w : Word) (s : State) : State := if s.fault then s else s.setData w

/-- HostWrite (R53 to R56): writes to STATUS, FCMD and the reserved words are ignored; any other access is refused. -/
def hostWrite (offset : Nat) (value : BusWord) (s : State) : Host.Outcome State Fault Refusal :=
  match value with
  | .w32 v =>
    match window32 offset with
    | some .cmd => writeCmd v s
    | some .status => .next s
    | some .fcmd => .next s
    | some .reserved => .next s
    | none => .refused .unsupportedAccess
  | .w64 v => if offset = 0x08 then .next (writeData v s) else .refused .unsupportedAccess
  | .other _ _ => .refused .unsupportedAccess

/-- The value that the host read is handed over; nothing of the block changes (R59). -/
def State.reply (s : State) (v : BusWord) : State := { s with hostOut := v :: s.hostOut }

/-- A host read of DATA: its value, or, while DATA_VALID = 0, a free value (R25, I3; log 5). -/
def replyData (s : State) : State :=
  match s.data with
  | some w => s.reply (.w64 w)
  | none => { s with hostOut := .w64 (Config.freeData s.draws) :: s.hostOut, draws := s.draws + 1 }

/-- HostRead (R53 to R55, R59, R404). -/
def hostRead (offset : Nat) (width : AccessWidth) (s : State) : Host.Outcome State Fault Refusal :=
  match width with
  | .w32 =>
    match window32 offset with
    | some .cmd => .next (s.reply (.w32 0))
    | some .status => .next (s.reply (.w32 s.status))
    | some .fcmd => .next (s.reply (.w32 s.fcmd))
    | some .reserved => .next (s.reply (.w32 0))
    | none => .refused .unsupportedAccess
  | .w64 => if offset = 0x08 then .next (replyData s) else .refused .unsupportedAccess
  | .other _ => .refused .unsupportedAccess

/-- A reset event (R450 to R452): a command in progress is abandoned with none of its writes, so its CMD write leaves
no trace; while an access is outstanding reset has no step (I7). -/
def resetEvent (m : ResetMoment) (s : State) : Host.Outcome State Fault Refusal :=
  match m with
  | .idle => .next s.afterReset
  | .commandRunning _ => .next s.afterReset
  | .accessOutstanding => .refused .resetDuringAccess

/-- One event of the host or the platform. -/
def hostEvent (e : HostEvent) (s : State) : Host.Outcome State Fault Refusal :=
  match e with
  | .read offset width => hostRead offset width s
  | .write offset value => hostWrite offset value s
  | .reset m => resetEvent m s

/-- The host's next event is taken off its list and served; with none the block idles, and idling changes nothing
(R60, R422; log 3, log 10). -/
def serveNext (s : State) : Host.Outcome State Fault Refusal :=
  match s.hostIn with
  | [] => .next s
  | e :: rest => hostEvent e { s with hostIn := rest }

/-- The host's next event becomes a CMD write of the opcode-table word w, all bits above nbits being 0. -/
def issueWord (s : State) (nbits w : Nat) : State :=
  { s with hostIn := .write 0x00 (.w32 (BitVec.ofNat 32 (w % 2 ^ nbits))) :: s.hostIn }

end Sys2Proof.Machine
end

