-- ==== Sys2Proof/Machine/Step.lean ====
section
/-! DEFINITION. One step of the machine, and how the host's table words are put where the next step takes them. -/

namespace Sys2Proof.Machine

/-- One step: the host's next access or reset event (R56, R60). The block fetches nothing (R63). -/
def step (s : State) : Host.Outcome State Fault Refusal := serveNext s

/-- The command whose bits are w is the next thing the host writes to CMD, so the next step runs it (while FAULT = 1 no
command runs, R404; log 3, log 24). -/
def State.withFetchWord (s : State) (nbits w : Nat) : State := issueWord s nbits w

end Sys2Proof.Machine
end

