-- ==== Sys2Proof/Machine/Asm.lean ====
section
/-! DEFINITION. The assembler syntax of the commands (R83); an immediate is written in decimal (log 20). -/

namespace Sys2Proof.Machine

/-- V0 to V7 (R83). -/
def regName (r : Reg) : String := "V" ++ toString r.toNat

/-- The suffix of an S or X bit (R83). -/
def suffix : Sign → String
  | .u => ".u"
  | .s => ".s"

/-- A command of the mnemonic m with register operands and, where it has one, an immediate (R83). -/
def asmLine (m : String) (rs : List Reg) (imm : Option Imm15) : String :=
  let ops := rs.map regName ++ (imm.toList.map fun k => "#" ++ toString k.toNat)
  if ops.isEmpty then m else m ++ " " ++ String.intercalate ", " ops

/-- The assembler text of a command (R83). -/
def asm : Instr → String
  | .wrw rd imm => asmLine "WRW" [rd] (some imm)
  | .rdw ra imm => asmLine "RDW" [ra] (some imm)
  | .seqb ts ss rd => asmLine ("SEQB" ++ suffix ts ++ suffix ss) [rd] none
  | .seqw => asmLine "SEQW" [] none
  | .seqe => asmLine "SEQE" [] none
  | .fromwt ss rd => asmLine ("FROMWT" ++ suffix ss) [rd] none
  | .fromwc ts ss rd => asmLine ("FROMWC" ++ suffix ts ++ suffix ss) [rd] none
  | .fromwe ts ss rd => asmLine ("FROMWE" ++ suffix ts ++ suffix ss) [rd] none
  | .add sg rd ra rb => asmLine ("ADD" ++ suffix sg) [rd, ra, rb] none
  | .sub sg rd ra rb => asmLine ("SUB" ++ suffix sg) [rd, ra, rb] none
  | .addd sg rd ra rb => asmLine ("ADDD" ++ suffix sg) [rd, ra, rb] none
  | .subd sg rd ra rb => asmLine ("SUBD" ++ suffix sg) [rd, ra, rb] none
  | .mul sg rd ra rb => asmLine ("MUL" ++ suffix sg) [rd, ra, rb] none
  | .muld sg rd ra rb => asmLine ("MULD" ++ suffix sg) [rd, ra, rb] none
  | .mulfw sg rd re ra rb => asmLine ("MULFW" ++ suffix sg) [rd, re, ra, rb] none
  | .mulfwd sg rd re ra rb => asmLine ("MULFWD" ++ suffix sg) [rd, re, ra, rb] none
  | .div sg rd re ra rb => asmLine ("DIV" ++ suffix sg) [rd, re, ra, rb] none
  | .divfw sg rd re ra rb rc => asmLine ("DIVFW" ++ suffix sg) [rd, re, ra, rb, rc] none
  | .divd sg rd re ra rb => asmLine ("DIVD" ++ suffix sg) [rd, re, ra, rb] none
  | .not rd ra => asmLine "NOT" [rd, ra] none
  | .neg sg rd ra => asmLine ("NEG" ++ suffix sg) [rd, ra] none
  | .mag sg rd ra => asmLine ("MAG" ++ suffix sg) [rd, ra] none
  | .shl sg rd ra rb => asmLine ("SHL" ++ suffix sg) [rd, ra, rb] none
  | .shli rd ra imm => asmLine "SHLI" [rd, ra] (some imm)
  | .shr sg rd ra rb => asmLine ("SHR" ++ suffix sg) [rd, ra, rb] none
  | .shri sg rd ra imm => asmLine ("SHRI" ++ suffix sg) [rd, ra] (some imm)
  | .shlm rd ra rb => asmLine "SHLM" [rd, ra, rb] none
  | .shlmi rd ra imm => asmLine "SHLMI" [rd, ra] (some imm)
  | .shrm sg rd ra rb => asmLine ("SHRM" ++ suffix sg) [rd, ra, rb] none
  | .shrmi sg rd ra imm => asmLine ("SHRMI" ++ suffix sg) [rd, ra] (some imm)
  | .shlw rd ra rb => asmLine "SHLW" [rd, ra, rb] none
  | .shlwi rd ra imm => asmLine "SHLWI" [rd, ra] (some imm)
  | .shrw sg rd ra rb => asmLine ("SHRW" ++ suffix sg) [rd, ra, rb] none
  | .shrwi sg rd ra imm => asmLine ("SHRWI" ++ suffix sg) [rd, ra] (some imm)
  | .rol rd ra rb => asmLine "ROL" [rd, ra, rb] none
  | .roli rd ra imm => asmLine "ROLI" [rd, ra] (some imm)
  | .ror rd ra rb => asmLine "ROR" [rd, ra, rb] none
  | .rori rd ra imm => asmLine "RORI" [rd, ra] (some imm)
  | .bget rd ra rb => asmLine "BGET" [rd, ra, rb] none
  | .bgeti rd ra imm => asmLine "BGETI" [rd, ra] (some imm)
  | .bset rd ra rb => asmLine "BSET" [rd, ra, rb] none
  | .bseti rd ra imm => asmLine "BSETI" [rd, ra] (some imm)
  | .bclr rd ra rb => asmLine "BCLR" [rd, ra, rb] none
  | .bclri rd ra imm => asmLine "BCLRI" [rd, ra] (some imm)
  | .btgl rd ra rb => asmLine "BTGL" [rd, ra, rb] none
  | .btgli rd ra imm => asmLine "BTGLI" [rd, ra] (some imm)

end Sys2Proof.Machine
end

