-- ==== Sys2Proof/Machine/DoubleWidth.lean ====
section
/-! DEFINITION. The reference datapaths built by recursive half-width composition: adder (R131), subtractor (R133),
negator (R232) and multiplier tree (R161, R162, R164). No command executes them: the commands follow the architectural
rules, and the spec says that each datapath equals its rule (log 19). -/

namespace Sys2Proof.Machine

/-- A double-width integer: a native word, or an ordered pair of halves (R8, R21). `DW k` has 64·2^k bits. -/
inductive DW : Nat → Type where
  | word (w : Word) : DW 0
  | pair {k : Nat} (high low : DW k) : DW (k + 1)
deriving Repr

/-- The width in bits of a value k levels above the native word (R8). -/
def levelWidth (k : Nat) : Nat := 64 * 2 ^ k

/-- The unsigned value of a double-width integer: high·2^W + low (R21). -/
def DW.toNat : {k : Nat} → DW k → Nat
  | _, .word w => w.toNat
  | k + 1, .pair h l => h.toNat * 2 ^ levelWidth k + l.toNat

/-- The double-width integer of x mod 2^(64·2^k). -/
def DW.ofNat : (k : Nat) → Nat → DW k
  | 0, x => .word (BitVec.ofNat 64 x)
  | k + 1, x => .pair (DW.ofNat k (x / 2 ^ levelWidth k)) (DW.ofNat k x)

/-- add_(M,s) (R131). -/
def addRef : {k : Nat} → Sign → DW k → DW k → DW k × Bool
  | _, sg, .word x, .word y => (.word (bits 64 (val sg x + val sg y)), overflow 64 sg (val sg x + val sg y))
  | k + 1, sg, .pair xh xl, .pair yh yl =>
    let low := addRef .u xl yl
    let high := addRef sg xh yh
    let carried := if low.2 then addRef sg high.1 (DW.ofNat k 1) else (high.1, false)
    (.pair carried.1 low.1, high.2 ^^ carried.2)

/-- sub_(M,s) (R133). -/
def subRef : {k : Nat} → Sign → DW k → DW k → DW k × Bool
  | _, sg, .word x, .word y => (.word (bits 64 (val sg x - val sg y)), overflow 64 sg (val sg x - val sg y))
  | k + 1, sg, .pair xh xl, .pair yh yl =>
    let low := subRef .u xl yl
    let high := subRef sg xh yh
    let borrowed := if low.2 then subRef sg high.1 (DW.ofNat k 1) else (high.1, false)
    (.pair borrowed.1 low.1, high.2 ^^ borrowed.2)

/-- twos_(M,s)(x, c) (R232). -/
def twosRef : {k : Nat} → Sign → DW k → Bool → DW k × Bool
  | _, sg, .word x, c =>
    let t := val sg (~~~x) + (if c then 1 else 0)
    (.word (bits 64 t), overflow 64 sg t)
  | _ + 1, sg, .pair xh xl, c =>
    let low := twosRef .u xl c
    let high := twosRef sg xh low.2
    (.pair high.1 low.1, high.2)

/-- The high half of a double-width integer (R8, R21). -/
def DW.high : {k : Nat} → DW (k + 1) → DW k
  | _, .pair h _ => h

/-- The low half of a double-width integer (R8, R21). -/
def DW.low : {k : Nat} → DW (k + 1) → DW k
  | _, .pair _ l => l

/-- How many of a list of carries are set. -/
def carries (cs : List Bool) : Nat := cs.countP id

/-- umulfw_M(x, y), the unsigned full-width product (hi, lo) by four half-width products (R164). -/
def umulfwRef : {k : Nat} → DW k → DW k → DW k × DW k
  | _, .word x, .word y => (.word (BitVec.ofNat 64 (x.toNat * y.toNat / 2 ^ 64)), .word (BitVec.ofNat 64 (x.toNat * y.toNat)))
  | k + 1, .pair a1 a0, .pair b1 b0 =>
    let p00 := umulfwRef a0 b0
    let p01 := umulfwRef a0 b1
    let p10 := umulfwRef a1 b0
    let p11 := umulfwRef a1 b1
    let m1 := addRef .u p00.1 p01.2
    let m2 := addRef .u m1.1 p10.2
    let t1 := addRef .u p11.2 p01.1
    let t2 := addRef .u t1.1 p10.1
    let t3 := addRef .u t2.1 (DW.ofNat k (carries [m1.2, m2.2]))
    let u := p11.1.toNat + carries [t1.2, t2.2, t3.2]
    (.pair (DW.ofNat k u) t3.1, .pair m2.1 p00.2)

/-- umul_M(x, y), the unsigned truncated product and its overflow (R161). -/
def umulRef : {k : Nat} → DW k → DW k → DW k × Bool
  | _, .word x, .word y => (.word (BitVec.ofNat 64 (x.toNat * y.toNat)), decide (2 ^ 64 ≤ x.toNat * y.toNat))
  | _ + 1, .pair a1 a0, .pair b1 b0 =>
    let p00 := umulfwRef a0 b0
    let p01 := umulfwRef a0 b1
    let p10 := umulfwRef a1 b0
    let ovf := (a1.toNat != 0 && b1.toNat != 0) || p01.1.toNat != 0 || p10.1.toNat != 0
    let h1 := addRef .u p00.1 p01.2
    let h2 := addRef .u h1.1 p10.2
    (.pair h2.1 p00.2, ovf || h1.2 || h2.2)

/-- The signed wrapper of R162 around the unsigned core: the truncated product of two N-bit patterns and OV, where N is
the width of level k. -/
def smulRef (k : Nat) (x y : BitVec (levelWidth k)) : BitVec (levelWidth k) × Bool :=
  let a := x.toInt
  let b := y.toInt
  let neg := decide (a < 0) != decide (b < 0)
  let p := umulRef (DW.ofNat k a.natAbs) (DW.ofNat k b.natAbs)
  let m := p.1.toNat
  let r := if neg then bits (levelWidth k) (-(m : Int)) else bits (levelWidth k) (m : Int)
  let half : Nat := 2 ^ (levelWidth k - 1)
  (r, p.2 || (!neg && decide (half - 1 < m)) || (neg && decide (half < m)))

/-- The full-width signed wrapper of R162: the magnitudes' full-width product, its 2N-bit pair negated by the negator of
R232 where the signs differ; the high half, the low half, and the negator's overflow report, which R162 says never
comes. -/
def smulfwRef (k : Nat) (x y : BitVec (levelWidth k)) : DW k × DW k × Bool :=
  let a := x.toInt
  let b := y.toInt
  let p := umulfwRef (DW.ofNat k a.natAbs) (DW.ofNat k b.natAbs)
  let q := if decide (a < 0) != decide (b < 0) then twosRef .s (.pair p.1 p.2) true else (.pair p.1 p.2, false)
  (q.1.high, q.1.low, q.2)

end Sys2Proof.Machine
end

