-- ==== Sys2Proof/Machine/LongDivision.lean ====
section
/-! DEFINITION. The long-division reference datapath, Knuth's Algorithm D as the spec adapts it (R193, R194), and the sign
correction (R195). No command executes it (log 19). -/

namespace Sys2Proof.Machine

/-- The index of the most significant nonzero word, or 0 (R16, R193). -/
def minLastIndex : List Word → Nat
  | [] => 0
  | _ :: ws => if wordsVal ws = 0 then 0 else minLastIndex ws + 1

/-- The unsigned value of word k of a list, 0 beyond its end. -/
def wordNat (ws : List Word) (k : Nat) : Nat := (ws.getD k 0).toNat

/-- clz64 of a nonzero word (R13). -/
def clz64 (w : Nat) : Nat := 63 - Nat.log2 w

/-- Fast path 2 of R193: division by one word, from the top word down; the quotient words and the remainder. -/
def shortDivide (v : Nat) : List Word → List Word × Nat
  | [] => ([], 0)
  | w :: ws =>
    let upper := shortDivide v ws
    let t := upper.2 * 2 ^ 64 + w.toNat
    (BitVec.ofNat 64 (t / v) :: upper.1, t % v)

/-- The loop 'while t > seg' of R194, t being qhat·vn: the final digit and the number of decrements. -/
def correctDigit (seg vn : Nat) : Nat → Nat → Nat × Nat
  | 0, c => (0, c)
  | qhat + 1, c => if seg < (qhat + 1) * vn then correctDigit seg vn qhat (c + 1) else (qhat + 1, c)

/-- One turn of the digit loop of R194 at j: the running remainder's words, the digit, and the number of decrements. -/
def divideDigit (mv vn : Nat) (un : List Word) (j : Nat) : List Word × Nat × Nat :=
  let num := wordNat un (j + mv + 1) * 2 ^ 64 + wordNat un (j + mv)
  let vTop := vn / 2 ^ (64 * mv)
  let qhat := min (num / vTop) (2 ^ 64 - 1)
  let seg := wordsVal ((un.drop j).take (mv + 2))
  let out := correctDigit seg vn qhat 0
  (un.take j ++ toWords (mv + 2) (seg - out.1 * vn) ++ un.drop (j + mv + 2), out)

/-- The digit loop of R194, from j = count − 1 down to 0: the final remainder's words, the quotient digits (least
significant first) and the numbers of decrements. -/
def divideLoop (mv vn : Nat) : Nat → List Word → List Word × List Word × List Nat
  | 0, un => (un, [], [])
  | j + 1, un =>
    let d := divideDigit mv vn un j
    let rest := divideLoop mv vn j d.1
    (rest.1, rest.2.1 ++ [BitVec.ofNat 64 d.2.1], rest.2.2 ++ [d.2.2])

/-- The general case of R194: quotient words, remainder, and the numbers of decrements of its digits. -/
def knuthDivide (u v : List Word) : List Word × Nat × List Nat :=
  let mu := minLastIndex u
  let mv := minLastIndex v
  let s := clz64 (wordNat v mv)
  let vn := wordsVal v * 2 ^ s % 2 ^ (64 * (mv + 1))
  let un := toWords (mu + 2) (wordsVal u * 2 ^ s)
  let out := divideLoop mv vn (mu + 1 - mv) un
  (out.2.1, wordsVal (out.1.take (mv + 1)) / 2 ^ s, out.2.2)

/-- udivmod of R193 and R194: quotient and remainder, none for a zero divisor. -/
def udivmodRef (u v : List Word) : Option (Nat × Nat) :=
  if wordsVal v = 0 then none
  else if wordsVal u ≤ wordsVal v then
    some (if wordsVal u = wordsVal v then (1, 0) else (0, wordsVal u))
  else if minLastIndex v = 0 then
    let out := shortDivide (wordNat v 0) (u.take (minLastIndex u + 1))
    some (wordsVal out.1, out.2)
  else
    let out := knuthDivide u v
    some (wordsVal out.1, out.2.1)

/-- The sign correction of R195: quotient, remainder and overflow at width 64·n of the dividend a, held in lu words, by the
divisor b, held in lv words; none for a zero divisor. -/
def divideRef (n lu lv : Nat) (sg : Sign) (a b : Int) : Option (Int × Int × Bool) :=
  match udivmodRef (toWords lu a.natAbs) (toWords lv b.natAbs) with
  | none => none
  | some (qm, rm) =>
    let q : Int := if decide (a < 0) != decide (b < 0) then -(qm : Int) else qm
    let r : Int := if a < 0 then -(rm : Int) else rm
    some (q, r, overflow (64 * n) sg q)

end Sys2Proof.Machine
end

