-- ==== Sys2Proof/Machine/WordSerial.lean ====
section
/-! DEFINITION. The word-serial reference datapaths: the digit ripple of ADDD and SUBD (R135, R137), the digit multiplier
(R167), and the word copies of the barrel shifter and rotator (R250 to R252, R271). A pattern is its list of words, word 0
first. No command executes them (log 19). -/

namespace Sys2Proof.Machine

/-- One word of the ripple with the incoming r in {−1, 0, +1}: the new word and the outgoing r (R135). -/
def rippleWord (x : Word) (r : Int) : Word × Int :=
  if r = 0 then (x, 0)
  else if r = 1 then (bits 64 ((x.toNat : Int) + 1), if x = BitVec.allOnes 64 then 1 else 0)
  else (bits 64 ((x.toNat : Int) - 1), if x = 0 then -1 else 0)

/-- The loop of R135 over the higher words: the words, r on entry to the last of them, and r after it. -/
def ripple : List Word → Int → List Word × Int × Int
  | [], r => ([], r, r)
  | [x], r => ([(rippleWord x r).1], r, (rippleWord x r).2)
  | x :: y :: xs, r =>
    let rest := ripple (y :: xs) (rippleWord x r).2
    ((rippleWord x r).1 :: rest.1, rest.2)

/-- The overflow test at the end of the ripple (R135). -/
def rippleOverflow (sg : Sign) (top : Word) (rTop rOut : Int) : Bool :=
  match sg with
  | .u => rOut != 0
  | .s => overflow 64 .s (top.toInt + rTop)

/-- ADDD reference datapath (R135); S as given, dw the digit's word. -/
def addDigitRef (sg : Sign) (x : List Word) (dw : Word) : List Word × Bool :=
  match x with
  | [] => ([], false)
  | x0 :: xs =>
    let sum := x0.toNat + dw.toNat
    let c : Int := if 2 ^ 64 ≤ sum then 1 else 0
    let out := ripple xs (c - (if sg = .s ∧ dw.msb = true then 1 else 0))
    (BitVec.ofNat 64 sum :: out.1, rippleOverflow sg (xs.getLastD x0) out.2.1 out.2.2)

/-- SUBD reference datapath (R137). -/
def subDigitRef (sg : Sign) (x : List Word) (dw : Word) : List Word × Bool :=
  match x with
  | [] => ([], false)
  | x0 :: xs =>
    let b : Int := if x0.toNat < dw.toNat then 1 else 0
    let out := ripple xs ((if sg = .s ∧ dw.msb = true then 1 else 0) - b)
    ((x0 - dw) :: out.1, rippleOverflow sg (xs.getLastD x0) out.2.1 out.2.2)

/-- The loop of R167: the product words and the high Digit. -/
def mulSerial (D : Nat) : List Word → Nat → List Word × Nat
  | [], carry => ([], carry)
  | x :: xs, carry =>
    let t := x.toNat * D + carry
    let rest := mulSerial D xs (t / 2 ^ 64)
    (BitVec.ofNat 64 t :: rest.1, rest.2)

/-- MULFWD reference datapath (R167): the n low words followed by the high Digit, n + 1 words in all. When S = 1 the
loop runs on the magnitudes and the (N+64)-bit result is negated if the signs differ. -/
def mulDigitRef (sg : Sign) (n : Nat) (x : List Word) (dw : Word) : List Word :=
  let a := val sg (BitVec.ofNat (64 * n) (wordsVal x))
  let d := val sg dw
  let p := mulSerial d.natAbs (toWords n a.natAbs) 0
  let all := p.1 ++ [BitVec.ofNat 64 p.2]
  if (decide (a < 0)) != (decide (d < 0)) then toWords (n + 1) (bits (64 * (n + 1)) (-(wordsVal all : Int))).toNat
  else all

/-- The major/minor translator (R250): whole words and bits within a word. -/
def majorMinor (k : Nat) : Nat × Nat := (k / 64, k % 64)

/-- Two adjacent source words combined at a minor distance, the left form (R251): `cur` shifted up, `below` shifted in. -/
def combineLeft (cur below : Word) (minor : Nat) : Word :=
  (cur <<< minor) ||| (if minor = 0 then 0 else below >>> (64 - minor))

/-- The right form (R252). -/
def combineRight (cur above : Word) (minor : Nat) : Word :=
  (cur >>> minor) ||| (if minor = 0 then 0 else above <<< (64 - minor))

/-- Left shift by word copy and combine, environment fill 0 (R251). -/
def lshRef (x : List Word) (k : Nat) : List Word :=
  let (major, minor) := majorMinor k
  (List.range x.length).map fun j =>
    combineLeft (if major ≤ j then x.getD (j - major) 0 else 0) (if major + 1 ≤ j then x.getD (j - major - 1) 0 else 0) minor

/-- Right shift by word copy and combine; the environment is all-ones for a negative value when S = 1 (R252). -/
def rshRef (sg : Sign) (x : List Word) (k : Nat) : List Word :=
  let env : Word := if sg = .s ∧ (x.getLastD 0).msb = true then BitVec.allOnes 64 else 0
  let (major, minor) := majorMinor k
  (List.range x.length).map fun j => combineRight (x.getD (j + major) env) (x.getD (j + major + 1) env) minor

/-- Left rotation by two word copies, indices mod n (R271). -/
def rotlRef (x : List Word) (k : Nat) : List Word :=
  let n := x.length
  let (major, minor) := majorMinor k
  (List.range n).map fun j =>
    combineLeft (x.getD ((j + n - major) % n) 0) (x.getD ((j + 2 * n - major - 1) % n) 0) minor

end Sys2Proof.Machine
end

