-- ==== Sys2Proof/Safety.lean ====
section
/-! DEFINITION. The terms in which claims are stated: what a register holds, how a command ends, clean and well-formed
states, and what a run of host events is. -/

namespace Sys2Proof.Machine

/-! ## What a register holds -/

/-- V[r] is fully valid and holds the N-bit pattern x: it has n words, and word k is valid and is x[64k+63 : 64k] (R11, R24). -/
def Holds {N : Nat} (s : State) (r : Reg) (x : BitVec N) : Prop :=
  s.cfg.width = N ∧ (s.reg r).length = s.cfg.words ∧
    ∀ k, k < s.cfg.words → (s.reg r)[k]? = some (some (x.extractLsb' (64 * k) 64))

/-- Word k of V[r] is valid and holds w (R24). -/
abbrev HoldsWord (s : State) (r : Reg) (k : Nat) (w : Word) : Prop := (s.reg r)[k]? = some (some w)

/-- Some word of V[r] is not valid (R24). -/
def HasInvalid (s : State) (r : Reg) : Prop := ∃ k : Nat, (s.reg r)[k]? = some none

/-- Word k of V[r] is not valid (R24). -/
abbrev InvalidWord (s : State) (r : Reg) (k : Nat) : Prop := (s.reg r)[k]? = some none

/-! ## Patterns -/

/-- ext_(S,N) of a word: sign-extended when S = 1, zero-extended when S = 0 (R12). -/
def extend (N : Nat) (sg : Sign) (w : Word) : BitVec N :=
  match sg with
  | .u => w.setWidth N
  | .s => w.signExtend N

/-- The right shift by k bits: arithmetic when S = 1, logical when S = 0; from k = N on it is the fill of R253. -/
def shiftRightBy {N : Nat} (sg : Sign) (x : BitVec N) (k : Nat) : BitVec N :=
  match sg with
  | .u => x >>> k
  | .s => x.sshiftRight k

/-- The truncating quotient of two patterns read with S, b nonzero (R13). -/
def quotient {N : Nat} (sg : Sign) (a b : BitVec N) : BitVec N :=
  match sg with
  | .u => a / b
  | .s => a.sdiv b

/-- The truncating remainder of two patterns read with S, b nonzero (R13). -/
def remainder {N : Nat} (sg : Sign) (a b : BitVec N) : BitVec N :=
  match sg with
  | .u => a % b
  | .s => a.srem b

/-! ## How a command ends -/

/-- The command enters the fault state with the cause code k, and writes nothing else (R402, R403). -/
def Faults (i : Instr) (s : State) (k : BitVec 4) : Prop :=
  exec i s = .next { s with fault := true, cause := k, fcmd := encode i }

/-- The command completes with a present result: V[rd] holds y, NIL is 0, and everything else is as before (R29). -/
def WritesPresent {N : Nat} (i : Instr) (s : State) (rd : Reg) (y : BitVec N) : Prop :=
  ∃ t, exec i s = .next t ∧ Holds t rd y ∧ t = { s with regs := t.regs, nil := false } ∧ ∀ r, r ≠ rd → t.reg r = s.reg r

/-- The command completes: V[rd] holds y, OV is `ov`, and every other register and every other part of the state is as
before. -/
def Writes {N : Nat} (i : Instr) (s : State) (rd : Reg) (y : BitVec N) (ov : Bool) : Prop :=
  ∃ t, exec i s = .next t ∧ Holds t rd y ∧ t = { s with regs := t.regs, ov := ov } ∧ ∀ r, r ≠ rd → t.reg r = s.reg r

/-- The command completes: V[rd] holds y and V[re] holds z, OV is `ov`, and everything else is as before. -/
def WritesTwo {N : Nat} (i : Instr) (s : State) (rd re : Reg) (y z : BitVec N) (ov : Bool) : Prop :=
  ∃ t, exec i s = .next t ∧ Holds t rd y ∧ Holds t re z ∧ t = { s with regs := t.regs, ov := ov } ∧
    ∀ r, r ≠ rd → r ≠ re → t.reg r = s.reg r

/-! ## States -/

/-- Every register has exactly n words (R21). -/
abbrev State.Wf (s : State) : Prop := ∀ r : Reg, (s.reg r).length = s.cfg.words

/-- The word is illegal (R80). -/
def isIllegal (c : CmdWord) : Bool :=
  match decode c with
  | .ok _ => false
  | .error _ => true

/-- FAULT, CAUSE and FCMD agree: with FAULT = 0 CAUSE and FCMD are 0; with FAULT = 1 CAUSE is one of the codes 1 to 7,
and it is ILLEGAL_CMD exactly where FCMD is an illegal word (R31, R32, R401, R411). -/
abbrev State.FaultCoherent (s : State) : Prop :=
  (s.fault = false → s.cause = 0 ∧ s.fcmd = 0) ∧
    (s.fault = true → s.cause ≠ 0 ∧ s.cause.toNat ≤ 7 ∧ (s.cause = 1 ↔ isIllegal s.fcmd = true))

/-- With no sequence open the staging state is cleared (R37, R104). -/
abbrev State.SeqCoherent (s : State) : Prop :=
  s.seqOpen = false → s.seqRd = 0 ∧ s.seqTS = .u ∧ s.seqSS = .u ∧ s.seqBuf = []

/-- The invariant of the machine. -/
abbrev State.Inv (s : State) : Prop := s.Wf ∧ s.FaultCoherent ∧ s.SeqCoherent

/-- A clean state (R454). -/
abbrev State.Clean (s : State) : Prop := s.fault = false ∧ s.cause = 0 ∧ s.seqOpen = false ∧ s.seqBuf = []

/-- The same state of an instance with another ENDIAN (R322). -/
def State.onPlatform (s : State) (e : Endian) : State := { s with cfg := { s.cfg with endian := e } }

/-! ## Runs -/

/-- The run of a finite sequence of host accesses and reset events from a start state (R460). -/
def runHost (s : State) (es : List HostEvent) : Host.Outcome State Fault Refusal :=
  Host.Core.run Sys2Proof.core es.length { s with hostIn := es }

/-- A run that ended well: its final state has not faulted (R460). -/
def EndsWell (s : State) (es : List HostEvent) : Prop := ∃ t, runHost s es = .next t ∧ t.fault = false

/-- The host writes the word of a command to CMD. -/
def issue (i : Instr) : HostEvent := .write 0x00 (.w32 (encode i))

/-- The host writes DATA. -/
def putData (w : Word) : HostEvent := .write 0x08 (.w64 w)

end Sys2Proof.Machine

namespace Sys2Proof

/-! ## Lists of commands that the rules name -/

/-- The writers of OV (R27). -/
def Instr.writesOV : Instr → Bool
  | .add .. | .sub .. | .addd .. | .subd .. | .mul .. | .muld .. | .div .. | .divfw .. | .divd .. | .not .. | .neg .. => true
  | .wrw .. | .rdw .. | .seqb .. | .seqw | .seqe | .fromwt .. | .fromwc .. | .fromwe .. | .mulfw .. | .mulfwd .. => false
  | .mag .. | .shl .. | .shli .. | .shr .. | .shri .. | .shlm .. | .shlmi .. | .shrm .. | .shrmi .. => false
  | .shlw .. | .shlwi .. | .shrw .. | .shrwi .. | .rol .. | .roli .. | .ror .. | .rori .. => false
  | .bget .. | .bgeti .. | .bset .. | .bseti .. | .bclr .. | .bclri .. | .btgl .. | .btgli .. => false

/-- The writers of NIL (R29). -/
def Instr.writesNIL : Instr → Bool
  | .seqe | .fromwe .. => true
  | .add .. | .sub .. | .addd .. | .subd .. | .mul .. | .muld .. | .div .. | .divfw .. | .divd .. | .not .. | .neg .. => false
  | .wrw .. | .rdw .. | .seqb .. | .seqw | .fromwt .. | .fromwc .. | .mulfw .. | .mulfwd .. => false
  | .mag .. | .shl .. | .shli .. | .shr .. | .shri .. | .shlm .. | .shlmi .. | .shrm .. | .shrmi .. => false
  | .shlw .. | .shlwi .. | .shrw .. | .shrwi .. | .rol .. | .roli .. | .ror .. | .rori .. => false
  | .bget .. | .bgeti .. | .bset .. | .bseti .. | .bclr .. | .bclri .. | .btgl .. | .btgli .. => false

/-- The commands of the word-sequence load (R456). -/
def Instr.usesStaging : Instr → Bool
  | .seqb .. | .seqw | .seqe => true
  | .add .. | .sub .. | .addd .. | .subd .. | .mul .. | .muld .. | .div .. | .divfw .. | .divd .. | .not .. | .neg .. => false
  | .wrw .. | .rdw .. | .fromwt .. | .fromwc .. | .fromwe .. | .mulfw .. | .mulfwd .. => false
  | .mag .. | .shl .. | .shli .. | .shr .. | .shri .. | .shlm .. | .shlmi .. | .shrm .. | .shrmi .. => false
  | .shlw .. | .shlwi .. | .shrw .. | .shrwi .. | .rol .. | .roli .. | .ror .. | .rori .. => false
  | .bget .. | .bgeti .. | .bset .. | .bseti .. | .bclr .. | .bclri .. | .btgl .. | .btgli .. => false

/-- The causes, other than ILLEGAL_CMD, that a command can raise: the column "raised by" of R401 with R405's list. -/
def Instr.causes : Instr → List Machine.Cause
  | .seqb .. => []
  | .seqw => [.seqState, .uninit]
  | .seqe => [.seqState]
  | .wrw .. | .rdw .. => [.wordIndex, .uninit]
  | .shlw .. | .shlwi .. | .shrw .. | .shrwi .. => [.uninit, .wordShiftRange]
  | .rol .. | .roli .. | .ror .. | .rori .. => [.uninit, .rotRange]
  | .bget .. | .bgeti .. | .bset .. | .bseti .. | .bclr .. | .bclri .. | .btgl .. | .btgli .. => [.uninit, .bitIndex]
  | .fromwt .. | .fromwc .. | .fromwe .. | .mulfw .. | .mulfwd .. | .mag .. | .not .. | .neg .. => [.uninit]
  | .add .. | .sub .. | .addd .. | .subd .. | .mul .. | .muld .. | .div .. | .divfw .. | .divd .. => [.uninit]
  | .shl .. | .shli .. | .shr .. | .shri .. | .shlm .. | .shlmi .. | .shrm .. | .shrmi .. => [.uninit]

/-- The full-register sources of a command (R79, R24). -/
def Instr.fullSources : Instr → List Reg
  | .wrw .. | .rdw .. | .seqb .. | .seqw | .seqe | .fromwt .. | .fromwc .. | .fromwe .. => []
  | .add _ _ ra rb | .sub _ _ ra rb | .mul _ _ ra rb | .mulfw _ _ _ ra rb | .div _ _ _ ra rb => [ra, rb]
  | .divfw _ _ _ ra rb rc => [ra, rb, rc]
  | .addd _ _ ra _ | .subd _ _ ra _ | .muld _ _ ra _ | .mulfwd _ _ _ ra _ | .divd _ _ _ ra _ => [ra]
  | .not _ ra | .neg _ _ ra | .mag _ _ ra => [ra]
  | .shl _ _ ra _ | .shr _ _ ra _ | .shlm _ ra _ | .shrm _ _ ra _ | .shlw _ ra _ | .shrw _ _ ra _ => [ra]
  | .shli _ ra _ | .shri _ _ ra _ | .shlmi _ ra _ | .shrmi _ _ ra _ | .shlwi _ ra _ | .shrwi _ _ ra _ => [ra]
  | .rol _ ra _ | .roli _ ra _ | .ror _ ra _ | .rori _ ra _ => [ra]
  | .bget _ ra _ | .bgeti _ ra _ | .bset _ ra _ | .bseti _ ra _ | .bclr _ ra _ | .bclri _ ra _ => [ra]
  | .btgl _ ra _ | .btgli _ ra _ => [ra]

/-- The single words that a command reads: the Digit, distance, count or index in word 0 of V[RB] (R76, R77), and RDW's
word (R325). -/
def Instr.wordSources : Instr → List (Reg × Nat)
  | .rdw ra imm => [(ra, imm.toNat)]
  | .addd _ _ _ rb | .subd _ _ _ rb | .muld _ _ _ rb | .mulfwd _ _ _ _ rb | .divd _ _ _ _ rb => [(rb, 0)]
  | .shl _ _ _ rb | .shr _ _ _ rb | .shlm _ _ rb | .shrm _ _ _ rb | .shlw _ _ rb | .shrw _ _ _ rb => [(rb, 0)]
  | .rol _ _ rb | .ror _ _ rb | .bget _ _ rb | .bset _ _ rb | .bclr _ _ rb | .btgl _ _ rb => [(rb, 0)]
  | .wrw .. | .seqb .. | .seqw | .seqe | .fromwt .. | .fromwc .. | .fromwe .. => []
  | .add .. | .sub .. | .mul .. | .mulfw .. | .div .. | .divfw .. | .not .. | .neg .. | .mag .. => []
  | .shli .. | .shri .. | .shlmi .. | .shrmi .. | .shlwi .. | .shrwi .. | .roli .. | .rori .. => []
  | .bgeti .. | .bseti .. | .bclri .. | .btgli .. => []

/-- The commands that read DATA (R25). -/
def Instr.readsData : Instr → Bool
  | .wrw .. | .seqw | .fromwt .. | .fromwc .. | .fromwe .. => true
  | .rdw .. | .seqb .. | .seqe | .add .. | .sub .. | .addd .. | .subd .. | .mul .. | .muld .. | .div .. | .divfw .. => false
  | .divd .. | .not .. | .neg .. | .mulfw .. | .mulfwd .. => false
  | .mag .. | .shl .. | .shli .. | .shr .. | .shri .. | .shlm .. | .shlmi .. | .shrm .. | .shrmi .. => false
  | .shlw .. | .shlwi .. | .shrw .. | .shrwi .. | .rol .. | .roli .. | .ror .. | .rori .. => false
  | .bget .. | .bgeti .. | .bset .. | .bseti .. | .bclr .. | .bclri .. | .btgl .. | .btgli .. => false

end Sys2Proof

namespace Sys2Proof.Machine

/-- The checks that R405 puts before UNINIT pass: the command is legal, a sequence is open for SEQW and SEQE, and the word
index of WRW and RDW is below n. -/
def EarlyChecksPass (s : State) (i : Instr) : Prop :=
  i.wellFormed = true ∧ (i = .seqw ∨ i = .seqe → s.seqOpen = true) ∧
    ∀ r imm, i = .wrw r imm ∨ i = .rdw r imm → imm.toNat < s.cfg.words

/-- Something that the command reads is not valid (R24, R25, R410). -/
def InvalidSource (s : State) (i : Instr) : Prop :=
  (∃ r ∈ i.fullSources, HasInvalid s r) ∨ (∃ p ∈ i.wordSources, InvalidWord s p.1 p.2) ∨
    (i.readsData = true ∧ s.data = none)

end Sys2Proof.Machine
end

