-- ==== Sys2Proof/Certificates/Slice0/Obligations.lean ====
section
/-! DEFINITION. The statements for the provers. Their terms are those of Sys2Proof/Safety.lean; N is the instance's width,
which `Holds` ties to the state. -/

open Sys2Proof Sys2Proof.Machine

/-! ## Encoding -/

/-- The decoder gives back every well-formed command that the encoder writes (from R71, R72, R79, R82). -/
def Obligations.DecodeOfEncode : Prop :=
  ∀ i : Instr, i.wellFormed = true → decode (encode i) = .ok i

/-- A legal word has one command and that command's word is the word itself (from R80, R82): so FCMD, which the model
writes as the encoding of the faulting command, is the faulting word (log 6). -/
def Obligations.EncodeOfDecode : Prop :=
  ∀ (c : CmdWord) (i : Instr), decode c = .ok i → encode i = c ∧ i.wellFormed = true

/-- The ten words of R85, each written out from its bits, decode to the commands beside them. -/
def Obligations.DecodesTheExampleWords : Prop :=
  decode 0b01000010011000001010000000000000#32 = .ok (.add .s 3 1 2) ∧
  decode 0b01100100100101001010011000000000#32 = .ok (.divfw .u 4 5 1 2 3) ∧
  decode 0b10000111010000010000000001000001#32 = .ok (.shri .s 2 2 65) ∧
  decode 0b00000100001000000000000000000011#32 = .ok (.wrw 1 3) ∧
  decode 0b00001000000000110000000000000000#32 = .ok (.rdw 6 0) ∧
  decode 0b01110011000000111000000000000000#32 = .ok (.neg .s 0 7) ∧
  decode 0b00001110010000000000000000000000#32 = .ok (.seqb .s .u 2) ∧
  decode 0b00010000000000000000000000000000#32 = .ok .seqw ∧
  decode 0b00010100000000000000000000000000#32 = .ok .seqe ∧
  decode 0b10000001001000010000000000000000#32 = .ok (Instr.mov 1 2)

/-- R86: 46 rows; a word is a command exactly when it selects a row, and it selects its own command's row and no other. -/
def Obligations.OpcodeTableSelectsTheLegalWords : Prop :=
  opcodeTable.length = 46 ∧
  (∀ c : CmdWord, (∃ i, decode c = .ok i) ↔ ∃ r ∈ opcodeTable, r.selects c = true) ∧
  (∀ (c : CmdWord) (i : Instr), decode c = .ok i → tableRow i ∈ opcodeTable ∧ (tableRow i).selects c = true) ∧
  (∀ c : CmdWord, ∀ r ∈ opcodeTable, ∀ r' ∈ opcodeTable, r.selects c = true → r'.selects c = true → r = r')

/-! ## Steps and faults -/

/-- A word that no row of the opcode table selects is illegal: written to CMD while FAULT = 0 it enters the fault state with
ILLEGAL_CMD and is not executed (from R80, R86, R402, R411). -/
def Obligations.IllegalWordRaisesIllegalCmd : Prop :=
  ∀ (s : State) (c : CmdWord) (rest : List HostEvent), s.hostIn = .write 0x00 (.w32 c) :: rest → s.fault = false →
    (∀ r ∈ opcodeTable, r.selects c = false) →
    step s = .next { s with hostIn := rest, fault := true, cause := 1, fcmd := c }

/-- A step whose next host event writes a decodable word to CMD is exec of the decoded command, at the state whose event
list has lost that event (from R56). -/
def Obligations.StepRunsTheDecodedCommand : Prop :=
  ∀ (s : State) (c : CmdWord) (rest : List HostEvent) (i : Instr), s.hostIn = .write 0x00 (.w32 c) :: rest →
    s.fault = false → decode c = .ok i → step s = exec i { s with hostIn := rest }

/-- R402: when a CMD write raises a fault, FAULT, CAUSE and FCMD are written and nothing else changes. -/
def Obligations.FaultEntryWritesOnlyTheFaultState : Prop :=
  ∀ (s t : State) (c : CmdWord) (rest : List HostEvent), s.hostIn = .write 0x00 (.w32 c) :: rest → s.fault = false →
    step s = .next t → t.fault = true →
    ∃ k : Cause, t = { s with hostIn := rest, fault := true, cause := k.code, fcmd := c }

/-- Every command answers a next state in every state (from R57 and R458, "every command completes"). -/
def Obligations.EveryCommandAnswersANextState : Prop :=
  ∀ (i : Instr) (s : State), ∃ t, exec i s = .next t

/-- R404: while FAULT = 1 writes to CMD and DATA are ignored, reads return the current values, no access changes the
block, and only a reset leaves the fault state. -/
def Obligations.FaultStateIsQuiescent : Prop :=
  ∀ (s : State) (e : HostEvent) (rest : List HostEvent), s.fault = true → s.hostIn = e :: rest →
    (∀ c, e = .write 0x00 (.w32 c) → step s = .next { s with hostIn := rest }) ∧
    (∀ w, e = .write 0x08 (.w64 w) → step s = .next { s with hostIn := rest }) ∧
    (∀ w, s.data = some w → e = .read 0x08 .w64 →
      step s = .next { s with hostIn := rest, hostOut := .w64 w :: s.hostOut }) ∧
    (e = .read 0x10 .w32 → step s = .next { s with hostIn := rest, hostOut := .w32 s.status :: s.hostOut }) ∧
    (e = .read 0x18 .w32 → step s = .next { s with hostIn := rest, hostOut := .w32 s.fcmd :: s.hostOut }) ∧
    (∀ o ∈ [0x00, 0x04, 0x14, 0x1C], e = .read o .w32 →
      step s = .next { s with hostIn := rest, hostOut := .w32 0 :: s.hostOut }) ∧
    (∀ t, (∀ m, e ≠ .reset m) → step s = .next t →
      t = { s with hostIn := rest, hostOut := t.hostOut, draws := t.draws }) ∧
    (∀ m t, e = .reset m → step s = .next t → t.fault = false)

/-- R401: the codes of the causes; a command raises only the causes that the table lists for it, and records its own word. -/
def Obligations.CausesAreTheCommandsOwn : Prop :=
  (Cause.code .illegalCmd = 1 ∧ Cause.code .uninit = 2 ∧ Cause.code .seqState = 3 ∧ Cause.code .wordIndex = 4 ∧
    Cause.code .wordShiftRange = 5 ∧ Cause.code .rotRange = 6 ∧ Cause.code .bitIndex = 7) ∧
  ∀ (i : Instr) (s t : State), s.fault = false → exec i s = .next t → t.fault = true →
    t.fcmd = encode i ∧ ∃ k : Cause, t.cause = k.code ∧ (k ∈ i.causes ∨ (k = .illegalCmd ∧ i.wellFormed = false))

/-- R410, with R405's order: a command raises UNINIT when a full-register source has an invalid word, when a single word it
reads is invalid, or when it reads an invalid DATA, whatever its range check would say; and for no other reason. -/
def Obligations.InvalidSourcesRaiseUninit : Prop :=
  (∀ (i : Instr) (s : State), s.fault = false → EarlyChecksPass s i → InvalidSource s i → Faults i s 2) ∧
  (∀ (i : Instr) (s t : State), s.fault = false → s.Wf → exec i s = .next t → t.fault = true → t.cause = 2 →
    InvalidSource s i)

/-- R412 and R413: SEQW and SEQE with no open sequence, WRW and RDW with an index of n or more, whatever else is invalid;
SEQB restarts an open sequence. -/
def Obligations.SequenceAndIndexChecksComeFirst : Prop :=
  ∀ s : State, s.fault = false →
    (s.seqOpen = false → Faults .seqw s 3 ∧ Faults .seqe s 3) ∧
    (∀ (r : Reg) (imm : Imm15), s.cfg.words ≤ imm.toNat → Faults (.wrw r imm) s 4 ∧ Faults (.rdw r imm) s 4) ∧
    (∀ (ts ss : Sign) (rd : Reg), s.seqOpen = true → exec (.seqb ts ss rd) s =
      .next { s with seqOpen := true, seqRd := rd, seqTS := ts, seqSS := ss, seqBuf := [] })

/-- R414, R415 and R416: a word count outside [0, n), a rotation distance outside [0, N) and a bit index outside [0, N) fault. -/
def Obligations.RangeChecksFault : Prop :=
  ∀ (N : Nat) (s : State) (sg : Sign) (rd ra rb : Reg) (x : BitVec N) (w : Word) (imm : Imm15), s.fault = false →
    Holds s ra x → HoldsWord s rb 0 w →
    (w.toInt < 0 ∨ (s.cfg.words : Int) ≤ w.toInt → Faults (.shlw rd ra rb) s 5 ∧ Faults (.shrw sg rd ra rb) s 5) ∧
    (s.cfg.words ≤ imm.toNat → Faults (.shlwi rd ra imm) s 5 ∧ Faults (.shrwi sg rd ra imm) s 5) ∧
    (w.toInt < 0 ∨ (N : Int) ≤ w.toInt → Faults (.rol rd ra rb) s 6 ∧ Faults (.ror rd ra rb) s 6 ∧
      Faults (.bget rd ra rb) s 7 ∧ Faults (.bset rd ra rb) s 7 ∧ Faults (.bclr rd ra rb) s 7 ∧
      Faults (.btgl rd ra rb) s 7) ∧
    (N ≤ imm.toNat → Faults (.roli rd ra imm) s 6 ∧ Faults (.rori rd ra imm) s 6 ∧ Faults (.bgeti rd ra imm) s 7 ∧
      Faults (.bseti rd ra imm) s 7 ∧ Faults (.bclri rd ra imm) s 7 ∧ Faults (.btgli rd ra imm) s 7)

/-- R417: with readable sources, overflow, a zero divisor, an oversized quotient, a smart or masking shift by any distance
and an unrepresentable value never fault. -/
def Obligations.DataDependentConditionsNeverFault : Prop :=
  ∀ (N : Nat) (s : State) (sg ts ss : Sign) (rd re ra rb rc : Reg) (a b c : BitVec N) (w : Word) (imm : Imm15),
    s.fault = false → rd ≠ re → Holds s ra a → Holds s rb b → Holds s rc c → s.data = some w → s.seqOpen = true →
    ∀ i ∈ [Instr.div sg rd re ra rb, .divd sg rd re ra rb, .divfw sg rd re ra rb rc, .neg sg rd ra, .add sg rd ra rb,
        .sub sg rd ra rb, .addd sg rd ra rb, .subd sg rd ra rb, .mul sg rd ra rb, .muld sg rd ra rb, .shl sg rd ra rb,
        .shli rd ra imm, .shr sg rd ra rb, .shri sg rd ra imm, .shlm rd ra rb, .shlmi rd ra imm, .shrm sg rd ra rb,
        .shrmi sg rd ra imm, .seqe, .fromwe ts ss rd],
      ∃ t, exec i s = .next t ∧ t.fault = false

/-! ## Flags and hidden state -/

/-- R27: the writers of OV write it on every completion, every other command leaves it, no command reads it, and it is 0
after reset. -/
def Obligations.OverflowFlagWriters : Prop :=
  (∀ (i : Instr) (s t : State) (b : Bool), s.fault = false → exec i s = .next t →
    ((i.writesOV = false ∨ t.fault = true) → t.ov = s.ov ∧ exec i { s with ov := b } = .next { t with ov := b }) ∧
    (i.writesOV = true → t.fault = false → exec i { s with ov := b } = .next t)) ∧
  ∀ c : Config, (State.resetOf c).ov = false

/-- R29: SEQE and FROMWE write NIL on every completion, every other command leaves it, no command reads it, and it is 0
after reset. -/
def Obligations.AbsentResultFlagWriters : Prop :=
  (∀ (i : Instr) (s t : State) (b : Bool), s.fault = false → exec i s = .next t →
    ((i.writesNIL = false ∨ t.fault = true) → t.nil = s.nil ∧ exec i { s with nil := b } = .next { t with nil := b }) ∧
    (i.writesNIL = true → t.fault = false → exec i { s with nil := b } = .next t)) ∧
  ∀ c : Config, (State.resetOf c).nil = false

/-- From R34 and R456: commands other than SEQB, SEQW and SEQE neither read nor change the staging state. -/
def Obligations.StagingStateIsInvisibleToOtherCommands : Prop :=
  ∀ (i : Instr) (s t : State) (op : Bool) (rd : Reg) (ts ss : Sign) (buf : List Word), s.fault = false →
    i.usesStaging = false → exec i s = .next t →
    (t.seqOpen = s.seqOpen ∧ t.seqRd = s.seqRd ∧ t.seqTS = s.seqTS ∧ t.seqSS = s.seqSS ∧ t.seqBuf = s.seqBuf) ∧
    exec i { s with seqOpen := op, seqRd := rd, seqTS := ts, seqSS := ss, seqBuf := buf } =
      .next { t with seqOpen := op, seqRd := rd, seqTS := ts, seqSS := ss, seqBuf := buf }

/-- R322: two instances that differ only in ENDIAN run every sequence of host events alike, with the same values
read; and physicalOffset is a bijection from the word indices onto the word slots. -/
def Obligations.EndianIsUnobservable : Prop :=
  (∀ (s t : State) (es : List HostEvent) (e : Endian), runHost s es = .next t →
    runHost (s.onPlatform e) es = .next (t.onPlatform e)) ∧
  (∀ (s : State) (es : List HostEvent) (e : Endian) (r : Refusal), runHost s es = .refused r →
    runHost (s.onPlatform e) es = .refused r) ∧
  (∀ c : Config, (∀ j k, j < c.words → k < c.words → physicalOffset c j = physicalOffset c k → j = k) ∧
    (∀ k, k < c.words → ∃ m, m < c.words ∧ physicalOffset c k = 8 * (m : Int)) ∧
    (∀ m, m < c.words → ∃ k, k < c.words ∧ physicalOffset c k = 8 * (m : Int)))

/-- Every step keeps the invariant: registers of n words, coherent FAULT, CAUSE and FCMD, coherent staging state (from R21,
R31, R32, R34, R401). -/
def Obligations.EveryStepKeepsTheInvariant : Prop :=
  ∀ s t : State, s.Inv → step s = .next t → t.Inv

/-- The invariant holds after reset, in every instance (from R37). -/
def Obligations.TheInvariantHoldsAfterReset : Prop :=
  State.reset.Inv ∧ ∀ c : Config, (State.resetOf c).Inv

/-! ## Reset and the host's window -/

/-- R450: what a reset event leaves, from every state. -/
def Obligations.ResetLeavesTheResetState : Prop :=
  ∀ (s : State) (m : ResetMoment) (rest : List HostEvent), s.hostIn = .reset m :: rest → m ≠ .accessOutstanding →
    ∃ t, step s = .next t ∧ (∀ r k, k < s.cfg.words → InvalidWord t r k) ∧ t.Wf ∧ t.data = none ∧ t.ov = false ∧
      t.nil = false ∧ t.fault = false ∧ t.cause = 0 ∧ t.status = 0 ∧ t.fcmd = 0 ∧ t.seqOpen = false ∧ t.seqRd = 0 ∧
      t.seqTS = .u ∧ t.seqSS = .u ∧ t.seqBuf = []

/-- From R54 (I6) and R452 (I7): accesses of another width or offset, and a reset with an access outstanding, have no step. -/
def Obligations.UnsupportedAccessesAreRefused : Prop :=
  ∀ (s : State) (rest : List HostEvent),
    (∀ o v, s.hostIn = .write o (.w32 v) :: rest → o ∉ [0x00, 0x04, 0x10, 0x14, 0x18, 0x1C] →
      step s = .refused .unsupportedAccess) ∧
    (∀ o, s.hostIn = .read o .w32 :: rest → o ∉ [0x00, 0x04, 0x10, 0x14, 0x18, 0x1C] →
      step s = .refused .unsupportedAccess) ∧
    (∀ o v, s.hostIn = .write o (.w64 v) :: rest → o ≠ 0x08 → step s = .refused .unsupportedAccess) ∧
    (∀ o, s.hostIn = .read o .w64 :: rest → o ≠ 0x08 → step s = .refused .unsupportedAccess) ∧
    (∀ o b v, s.hostIn = .write o (.other b v) :: rest → step s = .refused .unsupportedAccess) ∧
    (∀ o b, s.hostIn = .read o (.other b) :: rest → step s = .refused .unsupportedAccess) ∧
    (s.hostIn = .reset .accessOutstanding :: rest → step s = .refused .resetDuringAccess)

/-- From R53, R55, R56, R59, R422 and R25: what each supported access that runs no command does; with no event the block
idles. The value of a read of an invalid DATA is free (log 5). -/
def Obligations.WindowAccesses : Prop :=
  ∀ (s : State) (rest : List HostEvent),
    (s.hostIn = [] → step s = .next s) ∧
    (∀ o ∈ [0x00, 0x04, 0x14, 0x1C], s.hostIn = .read o .w32 :: rest →
      step s = .next { s with hostIn := rest, hostOut := .w32 0 :: s.hostOut }) ∧
    (s.hostIn = .read 0x10 .w32 :: rest →
      step s = .next { s with hostIn := rest, hostOut := .w32 s.status :: s.hostOut }) ∧
    (s.hostIn = .read 0x18 .w32 :: rest →
      step s = .next { s with hostIn := rest, hostOut := .w32 s.fcmd :: s.hostOut }) ∧
    (∀ w, s.data = some w → s.hostIn = .read 0x08 .w64 :: rest →
      step s = .next { s with hostIn := rest, hostOut := .w64 w :: s.hostOut }) ∧
    (s.data = none → s.hostIn = .read 0x08 .w64 :: rest →
      ∃ v, step s = .next { s with hostIn := rest, hostOut := .w64 v :: s.hostOut, draws := s.draws + 1 }) ∧
    (∀ o v, o ∈ [0x04, 0x10, 0x14, 0x18, 0x1C] → s.hostIn = .write o (.w32 v) :: rest →
      step s = .next { s with hostIn := rest }) ∧
    (∀ w, s.fault = false → s.hostIn = .write 0x08 (.w64 w) :: rest →
      step s = .next { s with hostIn := rest, data := some w })

/-- R26: the fields of STATUS, bits 31:8 reading 0; the host reads it, and a host write to it is ignored. -/
def Obligations.StatusFields : Prop :=
  (∀ s : State, s.status.getLsbD 0 = s.ov ∧ s.status.getLsbD 1 = s.nil ∧ s.status.getLsbD 2 = s.fault ∧
    s.status.getLsbD 3 = s.seqOpen ∧ s.status.extractLsb' 4 4 = s.cause ∧ s.status.extractLsb' 8 24 = 0) ∧
  (∀ (s : State) (v : BitVec 32) (rest : List HostEvent), s.hostIn = .write 0x10 (.w32 v) :: rest →
    step s = .next { s with hostIn := rest }) ∧
  (∀ (s : State) (rest : List HostEvent), s.hostIn = .read 0x10 .w32 :: rest →
    step s = .next { s with hostIn := rest, hostOut := .w32 s.status :: s.hostOut }) ∧
  ∀ c : Config, (State.resetOf c).status = 0

/-- From R60: a run of two sequences of host events is the second's run from the state the first one leaves. -/
def Obligations.RunsAreSequential : Prop :=
  ∀ (s t : State) (es fs : List HostEvent), runHost s es = .next t → runHost s (es ++ fs) = runHost t fs

/-! ## Arithmetic -/

/-- R130 and R132: ADD and SUB, their result, their OV in both readings, their UNINIT, and their frame. -/
def Obligations.AddAndSubtract : Prop :=
  ∀ (N : Nat) (sg : Sign) (rd ra rb : Reg) (s : State), s.fault = false →
    decode (wordR 0x10#6 sg.bit false rd 0 ra rb 0) = .ok (.add sg rd ra rb) ∧
    decode (wordR 0x11#6 sg.bit false rd 0 ra rb 0) = .ok (.sub sg rd ra rb) ∧
    (∀ a b : BitVec N, Holds s ra a → Holds s rb b →
      Writes (.add sg rd ra rb) s rd (a + b) (overflow N sg (val sg a + val sg b)) ∧
      Writes (.sub sg rd ra rb) s rd (a - b) (overflow N sg (val sg a - val sg b)) ∧
      overflow N .u (val .u a + val .u b) = decide (2 ^ N ≤ a.toNat + b.toNat) ∧
      overflow N .u (val .u a - val .u b) = decide (a.toNat < b.toNat) ∧
      overflow N .s (val .s a + val .s b) = (a.msb == b.msb && (a + b).msb != a.msb) ∧
      overflow N .s (val .s a - val .s b) = (a.msb != b.msb && (a - b).msb != a.msb)) ∧
    (HasInvalid s ra ∨ HasInvalid s rb → Faults (.add sg rd ra rb) s 2 ∧ Faults (.sub sg rd ra rb) s 2)

/-- R134 and R136: ADDD and SUBD with the Digit in word 0 of V[RB]. -/
def Obligations.AddAndSubtractDigit : Prop :=
  ∀ (N : Nat) (sg : Sign) (rd ra rb : Reg) (s : State), s.fault = false →
    decode (wordR 0x12#6 sg.bit false rd 0 ra rb 0) = .ok (.addd sg rd ra rb) ∧
    decode (wordR 0x13#6 sg.bit false rd 0 ra rb 0) = .ok (.subd sg rd ra rb) ∧
    (∀ (a : BitVec N) (w : Word), Holds s ra a → HoldsWord s rb 0 w →
      Writes (.addd sg rd ra rb) s rd (a + extend N sg w) (overflow N sg (val sg a + val sg w)) ∧
      Writes (.subd sg rd ra rb) s rd (a - extend N sg w) (overflow N sg (val sg a - val sg w)) ∧
      overflow N .u (val .u a + val .u w) = decide (2 ^ N ≤ a.toNat + w.toNat) ∧
      overflow N .u (val .u a - val .u w) = decide (a.toNat < w.toNat)) ∧
    (HasInvalid s ra ∨ InvalidWord s rb 0 → Faults (.addd sg rd ra rb) s 2 ∧ Faults (.subd sg rd ra rb) s 2)

/-- R160 and R165: MUL and MULD. -/
def Obligations.MultiplyTruncated : Prop :=
  ∀ (N : Nat) (sg : Sign) (rd ra rb : Reg) (s : State), s.fault = false →
    decode (wordR 0x14#6 sg.bit false rd 0 ra rb 0) = .ok (.mul sg rd ra rb) ∧
    decode (wordR 0x16#6 sg.bit false rd 0 ra rb 0) = .ok (.muld sg rd ra rb) ∧
    (∀ a b : BitVec N, Holds s ra a → Holds s rb b →
      Writes (.mul sg rd ra rb) s rd (a * b) (overflow N sg (val sg a * val sg b)) ∧
      overflow N .u (val .u a * val .u b) = decide (2 ^ N ≤ a.toNat * b.toNat)) ∧
    (∀ (a : BitVec N) (w : Word), Holds s ra a → HoldsWord s rb 0 w →
      Writes (.muld sg rd ra rb) s rd (a * extend N sg w) (overflow N sg (val sg a * val sg w))) ∧
    (HasInvalid s ra ∨ HasInvalid s rb → Faults (.mul sg rd ra rb) s 2) ∧
    (HasInvalid s ra ∨ InvalidWord s rb 0 → Faults (.muld sg rd ra rb) s 2)

/-- R163: MULFW writes the low half and the floor-divided high half of the exact product, and leaves OV. -/
def Obligations.MultiplyFullWidth : Prop :=
  ∀ (N : Nat) (sg : Sign) (rd re ra rb : Reg) (s : State), s.fault = false →
    (rd ≠ re → decode (wordR 0x15#6 sg.bit false rd re ra rb 0) = .ok (.mulfw sg rd re ra rb)) ∧
    decode (wordR 0x15#6 sg.bit false rd rd ra rb 0) = .error .sameDestination ∧
    (∀ a b : BitVec N, rd ≠ re → Holds s ra a → Holds s rb b → ∃ hi : BitVec N,
      WritesTwo (.mulfw sg rd re ra rb) s rd re (a * b) hi s.ov ∧
      val sg hi = val sg a * val sg b / (2 ^ N : Nat) ∧
      val sg a * val sg b = val sg hi * (2 ^ N : Nat) + ((a * b).toNat : Int)) ∧
    (rd ≠ re → HasInvalid s ra ∨ HasInvalid s rb → Faults (.mulfw sg rd re ra rb) s 2)

/-- R166: MULFWD writes the low N bits and the high Digit extended to N bits, and leaves OV. -/
def Obligations.MultiplyFullWidthByDigit : Prop :=
  ∀ (N : Nat) (sg : Sign) (rd re ra rb : Reg) (s : State), s.fault = false →
    (rd ≠ re → decode (wordR 0x17#6 sg.bit false rd re ra rb 0) = .ok (.mulfwd sg rd re ra rb)) ∧
    decode (wordR 0x17#6 sg.bit false rd rd ra rb 0) = .error .sameDestination ∧
    (∀ (a : BitVec N) (w : Word), rd ≠ re → Holds s ra a → HoldsWord s rb 0 w → ∃ h : Word,
      WritesTwo (.mulfwd sg rd re ra rb) s rd re (a * extend N sg w) (extend N sg h) s.ov ∧
      val sg h = val sg a * val sg w / (2 ^ N : Nat) ∧
      val sg a * val sg w = val sg h * (2 ^ N : Nat) + ((a * extend N sg w).toNat : Int)) ∧
    (rd ≠ re → HasInvalid s ra ∨ InvalidWord s rb 0 → Faults (.mulfwd sg rd re ra rb) s 2)

/-- R190: DIV, with the partial results of a zero divisor and of the signed minimum by −1. -/
def Obligations.Divide : Prop :=
  ∀ (N : Nat) (sg : Sign) (rd re ra rb : Reg) (s : State), s.fault = false →
    (rd ≠ re → decode (wordR 0x18#6 sg.bit false rd re ra rb 0) = .ok (.div sg rd re ra rb)) ∧
    decode (wordR 0x18#6 sg.bit false rd rd ra rb 0) = .error .sameDestination ∧
    (∀ a b : BitVec N, rd ≠ re → Holds s ra a → Holds s rb b →
      if b = 0 then WritesTwo (.div sg rd re ra rb) s rd re a a true
      else if sg = .s ∧ a = BitVec.intMin N ∧ b = BitVec.allOnes N then
        WritesTwo (.div sg rd re ra rb) s rd re (BitVec.intMin N) 0 true
      else WritesTwo (.div sg rd re ra rb) s rd re (quotient sg a b) (remainder sg a b) false ∧
        val sg (quotient sg a b) = Int.tdiv (val sg a) (val sg b) ∧
        val sg (remainder sg a b) = Int.tmod (val sg a) (val sg b)) ∧
    (rd ≠ re → HasInvalid s ra ∨ HasInvalid s rb → Faults (.div sg rd re ra rb) s 2)

/-- R191: DIVD, the divisor and the remainder being Digits; a zero divisor leaves the dividend's low word, extended by S. -/
def Obligations.DivideByDigit : Prop :=
  ∀ (N : Nat) (sg : Sign) (rd re ra rb : Reg) (s : State), s.fault = false →
    (rd ≠ re → decode (wordR 0x1A#6 sg.bit false rd re ra rb 0) = .ok (.divd sg rd re ra rb)) ∧
    decode (wordR 0x1A#6 sg.bit false rd rd ra rb 0) = .error .sameDestination ∧
    (∀ (a : BitVec N) (w : Word), rd ≠ re → Holds s ra a → HoldsWord s rb 0 w →
      if w = 0 then WritesTwo (.divd sg rd re ra rb) s rd re a (extend N sg (a.extractLsb' 0 64)) true
      else if sg = .s ∧ a = BitVec.intMin N ∧ w = BitVec.allOnes 64 then
        WritesTwo (.divd sg rd re ra rb) s rd re (BitVec.intMin N) 0 true
      else ∃ r : Word,
        WritesTwo (.divd sg rd re ra rb) s rd re (quotient sg a (extend N sg w)) (extend N sg r) false ∧
        val sg (quotient sg a (extend N sg w)) = Int.tdiv (val sg a) (val sg w) ∧
        val sg r = Int.tmod (val sg a) (val sg w)) ∧
    (rd ≠ re → HasInvalid s ra ∨ InvalidWord s rb 0 → Faults (.divd sg rd re ra rb) s 2)

/-- R192: DIVFW divides V[RA]·2^N + V[RB] by V[RC]; OV where the quotient does not fit, with the truncated quotient and the
exact remainder. -/
def Obligations.DivideFullWidth : Prop :=
  ∀ (N : Nat) (sg : Sign) (rd re ra rb rc : Reg) (s : State), s.fault = false →
    (rd ≠ re → decode (wordR 0x19#6 sg.bit false rd re ra rb rc) = .ok (.divfw sg rd re ra rb rc)) ∧
    decode (wordR 0x19#6 sg.bit false rd rd ra rb rc) = .error .sameDestination ∧
    (∀ (hi lo b : BitVec N) (D : Int), rd ≠ re → Holds s ra hi → Holds s rb lo → Holds s rc b →
      D = val sg hi * (2 ^ N : Nat) + (lo.toNat : Int) →
      if b = 0 then WritesTwo (.divfw sg rd re ra rb rc) s rd re lo lo true
      else ∃ q r : BitVec N,
        WritesTwo (.divfw sg rd re ra rb rc) s rd re q r (overflow N sg (Int.tdiv D (val sg b))) ∧
        q = bits N (Int.tdiv D (val sg b)) ∧ val sg r = Int.tmod D (val sg b) ∧
        (sg = .u → (overflow N sg (Int.tdiv D (val sg b)) = false ↔ hi.toNat < b.toNat))) ∧
    (rd ≠ re → HasInvalid s ra ∨ HasInvalid s rb ∨ HasInvalid s rc → Faults (.divfw sg rd re ra rb rc) s 2)

/-- R230, R231 and R233: NOT, NEG and MAG. -/
def Obligations.ComplementNegateMagnitude : Prop :=
  ∀ (N : Nat) (sg : Sign) (rd ra : Reg) (s : State), s.fault = false →
    decode (wordR 0x1C#6 false false rd 0 ra 0 0) = .ok (.not rd ra) ∧
    decode (wordR 0x1C#6 sg.bit true rd 0 ra 0 0) = .ok (.neg sg rd ra) ∧
    decode (wordR 0x1D#6 sg.bit false rd 0 ra 0 0) = .ok (.mag sg rd ra) ∧
    (∀ x : BitVec N, Holds s ra x →
      Writes (.not rd ra) s rd (~~~x) false ∧
      Writes (.neg .u rd ra) s rd (-x) (x == 0) ∧
      Writes (.neg .s rd ra) s rd (-x) (x == BitVec.intMin N) ∧
      Writes (.mag .u rd ra) s rd x s.ov ∧
      Writes (.mag .s rd ra) s rd (if x.msb then -x else x) s.ov) ∧
    (HasInvalid s ra → Faults (.not rd ra) s 2 ∧ Faults (.neg sg rd ra) s 2 ∧ Faults (.mag sg rd ra) s 2)

/-! ## Shifts, rotations and bit access -/

/-- R255 to R258: SHL, SHLI, SHR, SHRI; a distance of N or more clamps, a negative one shifts the other way. -/
def Obligations.SmartShifts : Prop :=
  ∀ (N : Nat) (sg : Sign) (rd ra rb : Reg) (imm : Imm15) (s : State), s.fault = false →
    decode (wordR 0x20#6 sg.bit false rd 0 ra rb 0) = .ok (.shl sg rd ra rb) ∧
    decode (wordI 0x20#6 false true rd ra imm) = .ok (.shli rd ra imm) ∧
    decode (wordR 0x21#6 sg.bit false rd 0 ra rb 0) = .ok (.shr sg rd ra rb) ∧
    decode (wordI 0x21#6 sg.bit true rd ra imm) = .ok (.shri sg rd ra imm) ∧
    (∀ (x : BitVec N) (w : Word), Holds s ra x → HoldsWord s rb 0 w →
      Writes (.shl sg rd ra rb) s rd
        (if w.toInt < 0 then shiftRightBy sg x (-w.toInt).toNat else x <<< w.toInt.toNat) s.ov ∧
      Writes (.shr sg rd ra rb) s rd
        (if w.toInt < 0 then x <<< (-w.toInt).toNat else shiftRightBy sg x w.toInt.toNat) s.ov) ∧
    (∀ x : BitVec N, Holds s ra x →
      Writes (.shli rd ra imm) s rd (x <<< imm.toNat) s.ov ∧
      Writes (.shri sg rd ra imm) s rd (shiftRightBy sg x imm.toNat) s.ov) ∧
    (HasInvalid s ra ∨ InvalidWord s rb 0 → Faults (.shl sg rd ra rb) s 2 ∧ Faults (.shr sg rd ra rb) s 2) ∧
    (HasInvalid s ra → Faults (.shli rd ra imm) s 2 ∧ Faults (.shri sg rd ra imm) s 2)

/-- R259 to R262: SHLM, SHLMI, SHRM, SHRMI shift by the non-negative residue of the distance mod N. -/
def Obligations.MaskingShifts : Prop :=
  ∀ (N : Nat) (sg : Sign) (rd ra rb : Reg) (imm : Imm15) (s : State), s.fault = false →
    decode (wordR 0x22#6 false false rd 0 ra rb 0) = .ok (.shlm rd ra rb) ∧
    decode (wordI 0x22#6 false true rd ra imm) = .ok (.shlmi rd ra imm) ∧
    decode (wordR 0x23#6 sg.bit false rd 0 ra rb 0) = .ok (.shrm sg rd ra rb) ∧
    decode (wordI 0x23#6 sg.bit true rd ra imm) = .ok (.shrmi sg rd ra imm) ∧
    (∀ (x : BitVec N) (w : Word), Holds s ra x → HoldsWord s rb 0 w →
      Writes (.shlm rd ra rb) s rd (x <<< (w.toInt % (N : Int)).toNat) s.ov ∧
      Writes (.shrm sg rd ra rb) s rd (shiftRightBy sg x (w.toInt % (N : Int)).toNat) s.ov) ∧
    (∀ x : BitVec N, Holds s ra x →
      Writes (.shlmi rd ra imm) s rd (x <<< (imm.toNat % N)) s.ov ∧
      Writes (.shrmi sg rd ra imm) s rd (shiftRightBy sg x (imm.toNat % N)) s.ov) ∧
    (HasInvalid s ra ∨ InvalidWord s rb 0 → Faults (.shlm rd ra rb) s 2 ∧ Faults (.shrm sg rd ra rb) s 2) ∧
    (HasInvalid s ra → Faults (.shlmi rd ra imm) s 2 ∧ Faults (.shrmi sg rd ra imm) s 2)

/-- R263 to R266: SHLW, SHLWI, SHRW, SHRWI shift by whole words for a count in [0, n), and fault outside it. -/
def Obligations.WordShifts : Prop :=
  ∀ (N : Nat) (sg : Sign) (rd ra rb : Reg) (imm : Imm15) (s : State), s.fault = false →
    decode (wordR 0x24#6 false false rd 0 ra rb 0) = .ok (.shlw rd ra rb) ∧
    decode (wordI 0x24#6 false true rd ra imm) = .ok (.shlwi rd ra imm) ∧
    decode (wordR 0x25#6 sg.bit false rd 0 ra rb 0) = .ok (.shrw sg rd ra rb) ∧
    decode (wordI 0x25#6 sg.bit true rd ra imm) = .ok (.shrwi sg rd ra imm) ∧
    (∀ (x : BitVec N) (w : Word), Holds s ra x → HoldsWord s rb 0 w →
      if 0 ≤ w.toInt ∧ w.toInt < (s.cfg.words : Int) then
        Writes (.shlw rd ra rb) s rd (x <<< (64 * w.toInt.toNat)) s.ov ∧
        Writes (.shrw sg rd ra rb) s rd (shiftRightBy sg x (64 * w.toInt.toNat)) s.ov
      else Faults (.shlw rd ra rb) s 5 ∧ Faults (.shrw sg rd ra rb) s 5) ∧
    (∀ x : BitVec N, Holds s ra x →
      if imm.toNat < s.cfg.words then
        Writes (.shlwi rd ra imm) s rd (x <<< (64 * imm.toNat)) s.ov ∧
        Writes (.shrwi sg rd ra imm) s rd (shiftRightBy sg x (64 * imm.toNat)) s.ov
      else Faults (.shlwi rd ra imm) s 5 ∧ Faults (.shrwi sg rd ra imm) s 5) ∧
    (HasInvalid s ra ∨ InvalidWord s rb 0 → Faults (.shlw rd ra rb) s 2 ∧ Faults (.shrw sg rd ra rb) s 2) ∧
    (HasInvalid s ra → Faults (.shlwi rd ra imm) s 2 ∧ Faults (.shrwi sg rd ra imm) s 2)

/-- R267 to R270: ROL, ROLI, ROR, RORI rotate for a distance in [0, N), and fault outside it. -/
def Obligations.Rotations : Prop :=
  ∀ (N : Nat) (rd ra rb : Reg) (imm : Imm15) (s : State), s.fault = false →
    decode (wordR 0x26#6 false false rd 0 ra rb 0) = .ok (.rol rd ra rb) ∧
    decode (wordI 0x26#6 false true rd ra imm) = .ok (.roli rd ra imm) ∧
    decode (wordR 0x27#6 false false rd 0 ra rb 0) = .ok (.ror rd ra rb) ∧
    decode (wordI 0x27#6 false true rd ra imm) = .ok (.rori rd ra imm) ∧
    (∀ (x : BitVec N) (w : Word), Holds s ra x → HoldsWord s rb 0 w →
      if 0 ≤ w.toInt ∧ w.toInt < (N : Int) then
        Writes (.rol rd ra rb) s rd (x.rotateLeft w.toInt.toNat) s.ov ∧
        Writes (.ror rd ra rb) s rd (x.rotateRight w.toInt.toNat) s.ov
      else Faults (.rol rd ra rb) s 6 ∧ Faults (.ror rd ra rb) s 6) ∧
    (∀ x : BitVec N, Holds s ra x →
      if imm.toNat < N then
        Writes (.roli rd ra imm) s rd (x.rotateLeft imm.toNat) s.ov ∧
        Writes (.rori rd ra imm) s rd (x.rotateRight imm.toNat) s.ov
      else Faults (.roli rd ra imm) s 6 ∧ Faults (.rori rd ra imm) s 6) ∧
    (HasInvalid s ra ∨ InvalidWord s rb 0 → Faults (.rol rd ra rb) s 2 ∧ Faults (.ror rd ra rb) s 2) ∧
    (HasInvalid s ra → Faults (.roli rd ra imm) s 2 ∧ Faults (.rori rd ra imm) s 2)

/-- R301 and R302: BGET and BGETI write the bit as 0 or 1. -/
def Obligations.BitReads : Prop :=
  ∀ (N : Nat) (rd ra rb : Reg) (imm : Imm15) (s : State), s.fault = false →
    decode (wordR 0x28#6 false false rd 0 ra rb 0) = .ok (.bget rd ra rb) ∧
    decode (wordI 0x28#6 false true rd ra imm) = .ok (.bgeti rd ra imm) ∧
    (∀ (x : BitVec N) (w : Word), Holds s ra x → HoldsWord s rb 0 w →
      if 0 ≤ w.toInt ∧ w.toInt < (N : Int) then
        Writes (.bget rd ra rb) s rd (BitVec.ofNat N (x.getLsbD w.toInt.toNat).toNat) s.ov
      else Faults (.bget rd ra rb) s 7) ∧
    (∀ x : BitVec N, Holds s ra x →
      if imm.toNat < N then Writes (.bgeti rd ra imm) s rd (BitVec.ofNat N (x.getLsbD imm.toNat).toNat) s.ov
      else Faults (.bgeti rd ra imm) s 7) ∧
    (HasInvalid s ra ∨ InvalidWord s rb 0 → Faults (.bget rd ra rb) s 2) ∧
    (HasInvalid s ra → Faults (.bgeti rd ra imm) s 2)

/-- R303 to R308: BSET, BCLR, BTGL and their immediate forms change the indexed bit alone. -/
def Obligations.BitWrites : Prop :=
  ∀ (N : Nat) (rd ra rb : Reg) (imm : Imm15) (s : State), s.fault = false →
    decode (wordR 0x29#6 false false rd 0 ra rb 0) = .ok (.bset rd ra rb) ∧
    decode (wordI 0x29#6 false true rd ra imm) = .ok (.bseti rd ra imm) ∧
    decode (wordR 0x2A#6 false false rd 0 ra rb 0) = .ok (.bclr rd ra rb) ∧
    decode (wordI 0x2A#6 false true rd ra imm) = .ok (.bclri rd ra imm) ∧
    decode (wordR 0x2B#6 false false rd 0 ra rb 0) = .ok (.btgl rd ra rb) ∧
    decode (wordI 0x2B#6 false true rd ra imm) = .ok (.btgli rd ra imm) ∧
    (∀ (x : BitVec N) (w : Word), Holds s ra x → HoldsWord s rb 0 w →
      if 0 ≤ w.toInt ∧ w.toInt < (N : Int) then
        ∃ y z v : BitVec N, Writes (.bset rd ra rb) s rd y s.ov ∧ Writes (.bclr rd ra rb) s rd z s.ov ∧
          Writes (.btgl rd ra rb) s rd v s.ov ∧ ∀ j, j < N →
          y.getLsbD j = (if j = w.toInt.toNat then true else x.getLsbD j) ∧
          z.getLsbD j = (if j = w.toInt.toNat then false else x.getLsbD j) ∧
          v.getLsbD j = (if j = w.toInt.toNat then !x.getLsbD j else x.getLsbD j)
      else Faults (.bset rd ra rb) s 7 ∧ Faults (.bclr rd ra rb) s 7 ∧ Faults (.btgl rd ra rb) s 7) ∧
    (∀ x : BitVec N, Holds s ra x →
      if imm.toNat < N then
        ∃ y z v : BitVec N, Writes (.bseti rd ra imm) s rd y s.ov ∧ Writes (.bclri rd ra imm) s rd z s.ov ∧
          Writes (.btgli rd ra imm) s rd v s.ov ∧ ∀ j, j < N →
          y.getLsbD j = (if j = imm.toNat then true else x.getLsbD j) ∧
          z.getLsbD j = (if j = imm.toNat then false else x.getLsbD j) ∧
          v.getLsbD j = (if j = imm.toNat then !x.getLsbD j else x.getLsbD j)
      else Faults (.bseti rd ra imm) s 7 ∧ Faults (.bclri rd ra imm) s 7 ∧ Faults (.btgli rd ra imm) s 7) ∧
    (HasInvalid s ra ∨ InvalidWord s rb 0 →
      Faults (.bset rd ra rb) s 2 ∧ Faults (.bclr rd ra rb) s 2 ∧ Faults (.btgl rd ra rb) s 2) ∧
    (HasInvalid s ra → Faults (.bseti rd ra imm) s 2 ∧ Faults (.bclri rd ra imm) s 2 ∧ Faults (.btgli rd ra imm) s 2)

/-! ## Word access and construction -/

/-- R324: WRW writes one word and its valid bit from DATA, and nothing else. The premise `s.Wf` is the invariant's. -/
def Obligations.WriteWord : Prop :=
  ∀ (rd : Reg) (imm : Imm15) (s : State), s.fault = false → s.Wf →
    decode (wordI 0x01#6 false false rd 0 imm) = .ok (.wrw rd imm) ∧
    (∀ w, s.data = some w → imm.toNat < s.cfg.words →
      ∃ t, exec (.wrw rd imm) s = .next t ∧ HoldsWord t rd imm.toNat w ∧
        (∀ j, j ≠ imm.toNat → (t.reg rd)[j]? = (s.reg rd)[j]?) ∧ (∀ r, r ≠ rd → t.reg r = s.reg r) ∧
        t = { s with regs := t.regs }) ∧
    (s.cfg.words ≤ imm.toNat → Faults (.wrw rd imm) s 4) ∧
    (s.data = none → imm.toNat < s.cfg.words → Faults (.wrw rd imm) s 2)

/-- R325: RDW writes one word to DATA, whatever the register's other words are. -/
def Obligations.ReadWord : Prop :=
  ∀ (ra : Reg) (imm : Imm15) (s : State), s.fault = false →
    decode (wordI 0x02#6 false false 0 ra imm) = .ok (.rdw ra imm) ∧
    (∀ w, HoldsWord s ra imm.toNat w → imm.toNat < s.cfg.words →
      exec (.rdw ra imm) s = .next { s with data := some w }) ∧
    (s.cfg.words ≤ imm.toNat → Faults (.rdw ra imm) s 4) ∧
    (InvalidWord s ra imm.toNat → imm.toNat < s.cfg.words → Faults (.rdw ra imm) s 2)

/-- R102 and R103: SEQB opens (and restarts) a sequence; SEQW appends DATA to it. -/
def Obligations.SequenceBeginAndWord : Prop :=
  ∀ s : State, s.fault = false →
    (∀ (ts ss : Sign) (rd : Reg), decode (wordR 0x03#6 ts.bit ss.bit rd 0 0 0 0) = .ok (.seqb ts ss rd)) ∧
    decode (wordR 0x04#6 false false 0 0 0 0 0) = .ok .seqw ∧
    (∀ (ts ss : Sign) (rd : Reg), exec (.seqb ts ss rd) s =
      .next { s with seqOpen := true, seqRd := rd, seqTS := ts, seqSS := ss, seqBuf := [] }) ∧
    (∀ w, s.seqOpen = true → s.data = some w → exec .seqw s = .next { s with seqBuf := s.seqBuf ++ [w] }) ∧
    (s.seqOpen = false → Faults .seqw s 3) ∧
    (s.seqOpen = true → s.data = none → Faults .seqw s 2)

/-- R104: SEQE freezes the sequence into its target where its value is in the target's range, and closes it. -/
def Obligations.SequenceEnd : Prop :=
  ∀ (N : Nat) (s : State), s.fault = false → s.cfg.width = N →
    decode (wordR 0x05#6 false false 0 0 0 0 0) = .ok .seqe ∧
    (s.seqOpen = true → rep N s.seqTS (seqval s.seqBuf s.seqSS) = true →
      ∃ (t : State) (x : BitVec N), exec .seqe s = .next t ∧ val s.seqTS x = seqval s.seqBuf s.seqSS ∧ Holds t s.seqRd x ∧
        (∀ r, r ≠ s.seqRd → t.reg r = s.reg r) ∧
        t = { s with regs := t.regs, nil := false, seqOpen := false, seqBuf := [], seqRd := 0, seqTS := .u, seqSS := .u }) ∧
    (s.seqOpen = true → rep N s.seqTS (seqval s.seqBuf s.seqSS) = false →
      exec .seqe s =
        .next { s with nil := true, seqOpen := false, seqBuf := [], seqRd := 0, seqTS := .u, seqSS := .u }) ∧
    (s.seqOpen = false → Faults .seqe s 3)

/-- R101: the value of a word sequence is the sum of its words' weights, or that less 2^(64 L) for a signed sequence whose top
bit is 1; the empty sequence is 0; padding with the sign word or zero words does not change it. -/
def Obligations.SequenceValue : Prop :=
  (∀ ss, seqval [] ss = 0) ∧
  (∀ buf : List Word, seqval buf .u = (wordsVal buf : Int)) ∧
  (∀ (buf : List Word) (w : Word), seqval (buf ++ [w]) .s =
    (wordsVal (buf ++ [w]) : Int) - (if w.msb then (2 ^ (64 * (buf.length + 1)) : Nat) else 0)) ∧
  (∀ buf : List Word, seqval (buf ++ [0]) .u = seqval buf .u) ∧
  (∀ (buf : List Word) (w : Word), seqval (buf ++ [w] ++ [if w.msb then BitVec.allOnes 64 else 0]) .s =
    seqval (buf ++ [w]) .s)

/-- R105, R106 and R107: FROMWT, FROMWC and FROMWE; only a negative source into an unsigned target clamps or is absent. -/
def Obligations.ConstructFromOneWord : Prop :=
  ∀ (N : Nat) (ts ss : Sign) (rd : Reg) (s : State), s.fault = false → s.cfg.width = N →
    decode (wordR 0x06#6 false ss.bit rd 0 0 0 0) = .ok (.fromwt ss rd) ∧
    decode (wordR 0x07#6 ts.bit ss.bit rd 0 0 0 0) = .ok (.fromwc ts ss rd) ∧
    decode (wordR 0x08#6 ts.bit ss.bit rd 0 0 0 0) = .ok (.fromwe ts ss rd) ∧
    (∀ w, s.data = some w →
      Writes (.fromwt ss rd) s rd (extend N ss w) s.ov ∧
      (if ts = .u ∧ ss = .s ∧ w.msb = true then
        Writes (.fromwc ts ss rd) s rd (0 : BitVec N) s.ov ∧ exec (.fromwe ts ss rd) s = .next { s with nil := true }
      else Writes (.fromwc ts ss rd) s rd (extend N ss w) s.ov ∧
        WritesPresent (.fromwe ts ss rd) s rd (extend N ss w))) ∧
    (s.data = none → Faults (.fromwt ss rd) s 2 ∧ Faults (.fromwc ts ss rd) s 2 ∧ Faults (.fromwe ts ss rd) s 2)

/-! ## Laws -/

/-- R108: a value loaded word by word through a sequence of its own signedness comes back. -/
def Obligations.SequenceRoundTrip : Prop :=
  ∀ (N : Nat) (s : State) (sg : Sign) (rd : Reg) (x : BitVec N), s.fault = false → s.cfg.width = N →
    ∃ t, runHost s ([issue (.seqb sg sg rd)] ++
        (List.range s.cfg.words).flatMap (fun k => [putData (x.extractLsb' (64 * k) 64), issue .seqw]) ++
        [issue .seqe]) = .next t ∧
      Holds t rd x ∧ t.nil = false ∧ t.fault = false ∧ t.seqOpen = false ∧ ∀ r, r ≠ rd → t.reg r = s.reg r

/-- R138: subtracting what was added gives the first operand back, always in the bits, and with OV = 0 when the addition had
OV = 0; the same with a digit. -/
def Obligations.AddThenSubtractRestores : Prop :=
  ∀ (N : Nat) (sg : Sign) (rd re ra rb : Reg) (s : State) (a b : BitVec N), s.fault = false → rd ≠ rb →
    Holds s ra a → Holds s rb b →
    (∃ t u, exec (.add sg rd ra rb) s = .next t ∧ exec (.sub sg re rd rb) t = .next u ∧ Holds u re a ∧
      (t.ov = false → u.ov = false)) ∧
    (∃ t u, exec (.addd sg rd ra rb) s = .next t ∧ exec (.subd sg re rd rb) t = .next u ∧ Holds u re a ∧
      (t.ov = false → u.ov = false))

/-- R168: the two halves of MULFW read as one 2N-bit pattern are the exact product, and its low half is MUL's result. -/
def Obligations.MultiplicationIsExact : Prop :=
  ∀ (N : Nat) (sg : Sign) (rd re ra rb : Reg) (s : State) (a b : BitVec N), s.fault = false → rd ≠ re →
    Holds s ra a → Holds s rb b →
    ∃ (t u : State) (lo hi : BitVec N), exec (.mulfw sg rd re ra rb) s = .next t ∧ Holds t rd lo ∧ Holds t re hi ∧
      val sg (hi ++ lo) = val sg a * val sg b ∧ exec (.mul sg rd ra rb) s = .next u ∧ Holds u rd lo

/-- R197: the division identity, the bound on the remainder and its sign; modulo 2^N in the overflow case. -/
def Obligations.DivisionIdentity : Prop :=
  ∀ (N : Nat) (sg : Sign) (rd re ra rb : Reg) (s : State) (a b : BitVec N), s.fault = false → rd ≠ re →
    Holds s ra a → Holds s rb b → b ≠ 0 →
    ∃ (t : State) (q r : BitVec N), exec (.div sg rd re ra rb) s = .next t ∧ Holds t rd q ∧ Holds t re r ∧
      a = b * q + r ∧ (t.ov = false → val sg a = val sg b * val sg q + val sg r) ∧
      (val sg r).natAbs < (val sg b).natAbs ∧ (val sg r = 0 ∨ (val sg r).sign = (val sg a).sign)

/-- R235: the laws of NEG, NOT and MAG. -/
def Obligations.SignLaws : Prop :=
  ∀ (N : Nat) (sg sg' : Sign) (rd re ra : Reg) (s : State) (x : BitVec N), s.fault = false → Holds s ra x →
    (∃ t u, exec (.neg sg rd ra) s = .next t ∧ exec (.neg sg' re rd) t = .next u ∧ Holds u re x) ∧
    (∃ t u, exec (.not rd ra) s = .next t ∧ exec (.not re rd) t = .next u ∧ Holds u re x) ∧
    (∃ (t u v : State) (y z m : BitVec N), exec (.not rd ra) s = .next t ∧ Holds t rd y ∧
      exec (.neg sg rd ra) s = .next u ∧ Holds u rd z ∧ z = bits N (val .u y + 1) ∧
      exec (.mag .s rd ra) s = .next v ∧ Holds v rd m ∧ m = (if x.msb then z else x)) ∧
    (∃ (t : State) (z : BitVec N), exec (.neg .s rd ra) s = .next t ∧ Holds t rd z ∧ (t.ov = true ↔ z = x ∧ x ≠ 0))

/-- R272: rotation and masking periodicity, and the shifts that agree. -/
def Obligations.ShiftLaws : Prop :=
  ∀ (N : Nat) (sg : Sign) (rd re ra rb rc : Reg) (imm imm' : Imm15) (s : State) (x : BitVec N), s.fault = false →
    Holds s ra x →
    (imm.toNat < N → ∃ t u, exec (.roli rd ra imm) s = .next t ∧ exec (.rori re rd imm) t = .next u ∧ Holds u re x) ∧
    (imm.toNat = N ∨ imm.toNat = 0 → Writes (.shlmi rd ra imm) s rd x s.ov) ∧
    (imm.toNat < N → ∃ y z : BitVec N, Writes (.shli rd ra imm) s rd y s.ov ∧ Writes (.shlmi rd ra imm) s rd y s.ov ∧
      Writes (.shri sg rd ra imm) s rd z s.ov ∧ Writes (.shrmi sg rd ra imm) s rd z s.ov) ∧
    (imm.toNat < s.cfg.words → imm'.toNat = 64 * imm.toNat → ∃ y z : BitVec N,
      Writes (.shlwi rd ra imm) s rd y s.ov ∧ Writes (.shli rd ra imm') s rd y s.ov ∧
      Writes (.shrwi sg rd ra imm) s rd z s.ov ∧ Writes (.shri sg rd ra imm') s rd z s.ov) ∧
    (∀ w w' : Word, HoldsWord s rb 0 w → HoldsWord s rc 0 w' → w'.toInt = -w.toInt → ∃ y : BitVec N,
      Writes (.shl sg rd ra rb) s rd y s.ov ∧ Writes (.shr sg rd ra rc) s rd y s.ov)

/-- R309: the laws of the bit accesses, and the agreement of their register and immediate forms. -/
def Obligations.BitLaws : Prop :=
  ∀ (N : Nat) (rd re ra rb : Reg) (imm : Imm15) (s : State) (x : BitVec N), s.fault = false → Holds s ra x →
    imm.toNat < N →
    Writes (.bgeti rd ra imm) s rd (BitVec.ofNat N (x.toNat / 2 ^ imm.toNat % 2)) s.ov ∧
    (∃ t u, exec (.bseti rd ra imm) s = .next t ∧ exec (.bgeti re rd imm) t = .next u ∧ Holds u re (1 : BitVec N)) ∧
    (∃ t u, exec (.bclri rd ra imm) s = .next t ∧ exec (.bgeti re rd imm) t = .next u ∧ Holds u re (0 : BitVec N)) ∧
    (∃ t u, exec (.btgli rd ra imm) s = .next t ∧ exec (.btgli re rd imm) t = .next u ∧ Holds u re x) ∧
    (∃ y z v : BitVec N, Writes (.bseti rd ra imm) s rd y s.ov ∧ Writes (.bclri rd ra imm) s rd z s.ov ∧
      Writes (.btgli rd ra imm) s rd v s.ov ∧ ∀ j, j ≠ imm.toNat →
      y.getLsbD j = x.getLsbD j ∧ z.getLsbD j = x.getLsbD j ∧ v.getLsbD j = x.getLsbD j) ∧
    (∀ w : Word, HoldsWord s rb 0 w → w.toInt = (imm.toNat : Int) →
      exec (.bget rd ra rb) s = exec (.bgeti rd ra imm) s ∧ exec (.bset rd ra rb) s = exec (.bseti rd ra imm) s ∧
      exec (.bclr rd ra rb) s = exec (.bclri rd ra imm) s ∧ exec (.btgl rd ra rb) s = exec (.btgli rd ra imm) s)

/-- R327: a word written is read back, writes of different words commute, and n word writes compose the value. -/
def Obligations.WordAccessLaws : Prop :=
  ∀ (N : Nat) (s : State) (rd : Reg), s.fault = false → s.Wf → s.cfg.width = N →
    (∀ (w : Word) (imm : Imm15), imm.toNat < s.cfg.words →
      ∃ t, runHost s [putData w, issue (.wrw rd imm), issue (.rdw rd imm)] = .next t ∧ t.data = some w ∧
        t.fault = false) ∧
    (∀ (w w' : Word) (j k : Imm15), j.toNat < s.cfg.words → k.toNat < s.cfg.words → j ≠ k →
      ∃ t u, runHost s [putData w, issue (.wrw rd j), putData w', issue (.wrw rd k)] = .next t ∧
        runHost s [putData w', issue (.wrw rd k), putData w, issue (.wrw rd j)] = .next u ∧ t.reg rd = u.reg rd) ∧
    (∀ x : BitVec N, s.cfg.words ≤ 2 ^ 15 →
      ∃ t, runHost s ((List.range s.cfg.words).flatMap fun k =>
          [putData (x.extractLsb' (64 * k) 64), issue (.wrw rd (BitVec.ofNat 15 k))]) = .next t ∧ Holds t rd x)

/-! ## Reference datapaths -/

/-- R131, R133 and R232: ADD, SUB, NOT and NEG compute what the recursive half-width datapaths compute, OV included. -/
def Obligations.HalfWidthDatapathsRefine : Prop :=
  ∀ (N k : Nat) (sg : Sign) (rd ra rb : Reg) (s : State) (a b : BitVec N), s.fault = false → k = s.cfg.levels + 1 →
    Holds s ra a → Holds s rb b →
    (∀ r, r = addRef sg (DW.ofNat k a.toNat) (DW.ofNat k b.toNat) →
      Writes (.add sg rd ra rb) s rd (BitVec.ofNat N r.1.toNat) r.2) ∧
    (∀ r, r = subRef sg (DW.ofNat k a.toNat) (DW.ofNat k b.toNat) →
      Writes (.sub sg rd ra rb) s rd (BitVec.ofNat N r.1.toNat) r.2) ∧
    (∀ r, r = twosRef .u (DW.ofNat k a.toNat) false → Writes (.not rd ra) s rd (BitVec.ofNat N r.1.toNat) r.2) ∧
    (∀ r, r = twosRef sg (DW.ofNat k a.toNat) true → Writes (.neg sg rd ra) s rd (BitVec.ofNat N r.1.toNat) r.2)

/-- R135 and R137: ADDD and SUBD compute what the digit ripples compute, OV included. -/
def Obligations.DigitRipplesRefine : Prop :=
  ∀ (N : Nat) (sg : Sign) (rd ra rb : Reg) (s : State) (a : BitVec N) (w : Word), s.fault = false →
    Holds s ra a → HoldsWord s rb 0 w →
    (∀ r, r = addDigitRef sg (toWords s.cfg.words a.toNat) w →
      Writes (.addd sg rd ra rb) s rd (BitVec.ofNat N (wordsVal r.1)) r.2) ∧
    (∀ r, r = subDigitRef sg (toWords s.cfg.words a.toNat) w →
      Writes (.subd sg rd ra rb) s rd (BitVec.ofNat N (wordsVal r.1)) r.2)

/-- R161, R162 and R164: MUL computes what the three-product datapath and its signed wrapper compute; the four-product
datapath is the exact product, unsigned MULFW computes it, and signed MULFW computes what the full-width wrapper, which
negates the 2N-bit pair and never overflows, computes. -/
def Obligations.MultiplierTreeRefines : Prop :=
  (∀ (k : Nat) (x y : DW k), (umulfwRef x y).1.toNat * 2 ^ levelWidth k + (umulfwRef x y).2.toNat = x.toNat * y.toNat ∧
    (umulRef x y).1.toNat = x.toNat * y.toNat % 2 ^ levelWidth k ∧
    (umulRef x y).2 = decide (2 ^ levelWidth k ≤ x.toNat * y.toNat)) ∧
  (∀ (k : Nat) (rd re ra rb : Reg) (s : State) (a b : BitVec (levelWidth k)), s.fault = false → k = s.cfg.levels + 1 →
    Holds s ra a → Holds s rb b →
    (∀ r, r = umulRef (DW.ofNat k a.toNat) (DW.ofNat k b.toNat) →
      Writes (.mul .u rd ra rb) s rd (BitVec.ofNat (levelWidth k) r.1.toNat) r.2) ∧
    Writes (.mul .s rd ra rb) s rd (smulRef k a b).1 (smulRef k a b).2 ∧
    (∀ r, rd ≠ re → r = umulfwRef (DW.ofNat k a.toNat) (DW.ofNat k b.toNat) →
      WritesTwo (.mulfw .u rd re ra rb) s rd re (BitVec.ofNat (levelWidth k) r.2.toNat)
        (BitVec.ofNat (levelWidth k) r.1.toNat) s.ov) ∧
    (∀ r, rd ≠ re → r = smulfwRef k a b → r.2.2 = false ∧
      WritesTwo (.mulfw .s rd re ra rb) s rd re (BitVec.ofNat (levelWidth k) r.2.1.toNat)
        (BitVec.ofNat (levelWidth k) r.1.toNat) s.ov))

/-- R167, R251, R252 and R271: MULFWD, SHLI, SHRI and ROLI inside their range compute what the word-serial datapaths
compute. -/
def Obligations.WordSerialDatapathsRefine : Prop :=
  ∀ (N : Nat) (sg : Sign) (rd re ra rb : Reg) (imm : Imm15) (s : State) (a : BitVec N) (w : Word), s.fault = false →
    Holds s ra a → HoldsWord s rb 0 w →
    (rd ≠ re → ∃ h : Word, (mulDigitRef sg s.cfg.words (toWords s.cfg.words a.toNat) w)[s.cfg.words]? = some h ∧
      WritesTwo (.mulfwd sg rd re ra rb) s rd re
        (BitVec.ofNat N (wordsVal ((mulDigitRef sg s.cfg.words (toWords s.cfg.words a.toNat) w).take s.cfg.words)))
        (extend N sg h) s.ov) ∧
    (imm.toNat < N →
      Writes (.shli rd ra imm) s rd (BitVec.ofNat N (wordsVal (lshRef (toWords s.cfg.words a.toNat) imm.toNat))) s.ov ∧
      Writes (.shri sg rd ra imm) s rd
        (BitVec.ofNat N (wordsVal (rshRef sg (toWords s.cfg.words a.toNat) imm.toNat))) s.ov ∧
      Writes (.roli rd ra imm) s rd
        (BitVec.ofNat N (wordsVal (rotlRef (toWords s.cfg.words a.toNat) imm.toNat))) s.ov)

/-- R195 over R193 and R194: with a nonzero divisor DIV, DIVD and DIVFW compute what the long-division unit with sign
correction computes. -/
def Obligations.LongDivisionRefines : Prop :=
  ∀ (N n : Nat) (sg : Sign) (rd re ra rb rc : Reg) (s : State) (a b c : BitVec N) (w : Word), s.fault = false →
    n = s.cfg.words → rd ≠ re → Holds s ra a → Holds s rb b → Holds s rc c → HoldsWord s rb 0 w →
    (b ≠ 0 → ∃ o, divideRef n n n sg (val sg a) (val sg b) = some o ∧
      WritesTwo (.div sg rd re ra rb) s rd re (bits N o.1) (bits N o.2.1) o.2.2) ∧
    (w ≠ 0 → ∃ o, divideRef n n 1 sg (val sg a) (val sg w) = some o ∧
      WritesTwo (.divd sg rd re ra rb) s rd re (bits N o.1) (bits N o.2.1) o.2.2) ∧
    (c ≠ 0 → ∃ o, divideRef n (2 * n) n sg (val sg a * (2 ^ N : Nat) + (b.toNat : Int)) (val sg c) = some o ∧
      WritesTwo (.divfw sg rd re ra rb rc) s rd re (bits N o.1) (bits N o.2.1) o.2.2)

/-- R196: udivmod is exact for every nonzero divisor, and the trial digit is decremented at most twice. -/
def Obligations.LongDivisionIsExactWithTwoCorrections : Prop :=
  (∀ u v : List Word, wordsVal v ≠ 0 →
    udivmodRef u v = some (wordsVal u / wordsVal v, wordsVal u % wordsVal v)) ∧
  (∀ u v : List Word, 1 ≤ minLastIndex v → wordsVal v < wordsVal u → ∀ c ∈ (knuthDivide u v).2.2, c ≤ 2)
end

