-- ==== Sys2Proof/Laws/Decode.lean ====
section
/-! SUPPORT. The fields of a word that the encoder builds are the fields it was given, and a word is the number its fields
make (R71, R72). -/

namespace Sys2Proof

theorem ofBit_bit (sg : Sign) : Sign.ofBit sg.bit = sg := by cases sg <;> rfl

theorem bit_ofBit (b : Bool) : (Sign.ofBit b).bit = b := by cases b <;> rfl

theorem bit_eq_false_iff (sg : Sign) : sg.bit = false ↔ sg = .u := by cases sg <;> simp [Sign.bit]

/-- Concatenation as a number (R11). -/
theorem toNat_append_eq {n m : Nat} (x : BitVec n) (y : BitVec m) : (x ++ y).toNat = x.toNat * 2 ^ m + y.toNat := by
  rw [BitVec.toNat_append, ← Nat.shiftLeft_add_eq_or_of_lt y.isLt, Nat.shiftLeft_eq]

/-- A bit field as a number. -/
theorem extract_toNat (c : CmdWord) (lo len : Nat) : (c.extractLsb' lo len).toNat = c.toNat / 2 ^ lo % 2 ^ len := by
  rw [BitVec.extractLsb'_toNat, Nat.shiftRight_eq_div_pow]

/-- A bit as a number. -/
theorem getLsbD_iff (c : CmdWord) (k : Nat) : c.getLsbD k = decide (c.toNat / 2 ^ k % 2 = 1) := by
  rw [BitVec.getLsbD, Nat.testBit_eq_decide_div_mod_eq]

/-- A word of format R as the number its fields make (R71). -/
theorem wordR_toNat (op : BitVec 6) (s x : Bool) (rd re ra rb rc : Reg) :
    (wordR op s x rd re ra rb rc).toNat = op.toNat * 2 ^ 26 + s.toNat * 2 ^ 25 + x.toNat * 2 ^ 24 + rd.toNat * 2 ^ 21 +
      re.toNat * 2 ^ 18 + ra.toNat * 2 ^ 15 + rb.toNat * 2 ^ 12 + rc.toNat * 2 ^ 9 := by
  have h : (op ++ BitVec.ofBool s ++ BitVec.ofBool x ++ rd ++ re ++ ra ++ rb ++ rc ++ (0#9)).toNat =
      op.toNat * 2 ^ 26 + s.toNat * 2 ^ 25 + x.toNat * 2 ^ 24 + rd.toNat * 2 ^ 21 + re.toNat * 2 ^ 18 +
        ra.toNat * 2 ^ 15 + rb.toNat * 2 ^ 12 + rc.toNat * 2 ^ 9 := by
    simp only [toNat_append_eq, BitVec.toNat_ofBool, BitVec.toNat_ofNat]
    ring
  exact h

/-- A word of format I as the number its fields make (R72). -/
theorem wordI_toNat (op : BitVec 6) (s x : Bool) (rd ra : Reg) (imm : Imm15) :
    (wordI op s x rd ra imm).toNat = op.toNat * 2 ^ 26 + s.toNat * 2 ^ 25 + x.toNat * 2 ^ 24 + rd.toNat * 2 ^ 21 +
      ra.toNat * 2 ^ 15 + imm.toNat := by
  have h : (op ++ BitVec.ofBool s ++ BitVec.ofBool x ++ rd ++ (0#3) ++ ra ++ imm).toNat =
      op.toNat * 2 ^ 26 + s.toNat * 2 ^ 25 + x.toNat * 2 ^ 24 + rd.toNat * 2 ^ 21 + ra.toNat * 2 ^ 15 + imm.toNat := by
    simp only [toNat_append_eq, BitVec.toNat_ofBool, BitVec.toNat_ofNat]
    ring
  exact h

/-- The fields of a word of format R (R71). -/
theorem fieldsOf_wordR (op : BitVec 6) (s x : Bool) (rd re ra rb rc : Reg) :
    fieldsOf (wordR op s x rd re ra rb rc) =
      { op := op, s := s, x := x, rd := rd, re := re, ra := ra, rb := rb, rc := rc, z := 0#9,
        imm := BitVec.ofNat 15 (rb.toNat * 2 ^ 12 + rc.toNat * 2 ^ 9) } := by
  have h1 := op.isLt
  have h2 : s.toNat < 2 := s.toNat_lt
  have h3 : x.toNat < 2 := x.toNat_lt
  have h4 := rd.isLt
  have h5 := re.isLt
  have h6 := ra.isLt
  have h7 := rb.isLt
  have h8 := rc.isLt
  simp only [fieldsOf, Fields.mk.injEq]
  refine ⟨?_, ?_, ?_, ?_, ?_, ?_, ?_, ?_, ?_, ?_⟩
  case refine_2 => rw [getLsbD_iff, wordR_toNat]; cases s <;> simp <;> omega
  case refine_3 => rw [getLsbD_iff, wordR_toNat]; cases x <;> simp <;> omega
  all_goals
    apply BitVec.eq_of_toNat_eq
    simp only [extract_toNat, wordR_toNat, BitVec.toNat_ofNat]
    omega

/-- The fields of a word of format I (R72). -/
theorem fieldsOf_wordI (op : BitVec 6) (s x : Bool) (rd ra : Reg) (imm : Imm15) :
    fieldsOf (wordI op s x rd ra imm) =
      { op := op, s := s, x := x, rd := rd, re := 0#3, ra := ra, rb := imm.extractLsb' 12 3, rc := imm.extractLsb' 9 3,
        z := imm.extractLsb' 0 9, imm := imm } := by
  have h1 := op.isLt
  have h2 : s.toNat < 2 := s.toNat_lt
  have h3 : x.toNat < 2 := x.toNat_lt
  have h4 := rd.isLt
  have h6 := ra.isLt
  have h7 := imm.isLt
  simp only [fieldsOf, Fields.mk.injEq]
  refine ⟨?_, ?_, ?_, ?_, ?_, ?_, ?_, ?_, ?_, ?_⟩
  case refine_2 => rw [getLsbD_iff, wordI_toNat]; cases s <;> simp <;> omega
  case refine_3 => rw [getLsbD_iff, wordI_toNat]; cases x <;> simp <;> omega
  all_goals
    apply BitVec.eq_of_toNat_eq
    simp only [extract_toNat, wordI_toNat, BitVec.extractLsb'_toNat, Nat.shiftRight_eq_div_pow, BitVec.toNat_ofNat]
    omega

/-- A word is the number its fields make (R71). -/
theorem word_toNat (c : CmdWord) :
    c.toNat = (fieldsOf c).op.toNat * 2 ^ 26 + (fieldsOf c).s.toNat * 2 ^ 25 + (fieldsOf c).x.toNat * 2 ^ 24 +
      (fieldsOf c).rd.toNat * 2 ^ 21 + (fieldsOf c).re.toNat * 2 ^ 18 + (fieldsOf c).ra.toNat * 2 ^ 15 +
      (fieldsOf c).imm.toNat := by
  have hc := c.isLt
  have hb : ∀ k, (c.getLsbD k).toNat = c.toNat / 2 ^ k % 2 := fun k => by
    rw [getLsbD_iff]
    rcases Nat.mod_two_eq_zero_or_one (c.toNat / 2 ^ k) with h | h <;> simp [h]
  simp only [fieldsOf, hb, extract_toNat]
  omega

/-- IMM15 overlays RB, RC and Z (R72). -/
theorem imm_toNat (c : CmdWord) :
    (fieldsOf c).imm.toNat = (fieldsOf c).rb.toNat * 2 ^ 12 + (fieldsOf c).rc.toNat * 2 ^ 9 + (fieldsOf c).z.toNat := by
  simp only [fieldsOf, extract_toNat]
  omega

end Sys2Proof
end

