-- ==== Sys2Proof/Laws/DoubleWidth.lean ====
section
/-! SUPPORT. What a double-width integer's halves and unsigned value are, for the reference datapaths. -/

namespace Sys2Proof.Machine

@[simp] theorem DW.high_pair {k : Nat} (h l : DW k) : (DW.pair h l).high = h := rfl

@[simp] theorem DW.low_pair {k : Nat} (h l : DW k) : (DW.pair h l).low = l := rfl

@[simp] theorem DW.toNat_word (w : Word) : (DW.word w).toNat = w.toNat := rfl

@[simp] theorem DW.toNat_pair {k : Nat} (h l : DW k) :
    (DW.pair h l).toNat = h.toNat * 2 ^ levelWidth k + l.toNat := rfl

theorem levelWidth_succ (k : Nat) : levelWidth (k + 1) = levelWidth k + levelWidth k := by
  simp only [levelWidth, pow_succ]; omega

theorem DW.toNat_eq_halves {k : Nat} (x : DW (k + 1)) : x.toNat = x.high.toNat * 2 ^ levelWidth k + x.low.toNat := by
  cases x; rfl

/-- A double-width integer's value fits in its width (R8). -/
theorem DW.toNat_lt {k : Nat} (x : DW k) : x.toNat < 2 ^ levelWidth k := by
  induction x with
  | word w => simpa [levelWidth] using w.isLt
  | pair h l ih il =>
    rw [levelWidth_succ, pow_add, DW.toNat_pair]
    calc h.toNat * 2 ^ levelWidth _ + l.toNat < (h.toNat + 1) * 2 ^ levelWidth _ := by rw [Nat.add_mul]; omega
      _ ≤ _ := Nat.mul_le_mul_right _ ih

/-- Composing a double-width integer takes the value modulo its width (R8, R12). -/
@[simp] theorem DW.toNat_ofNat (k x : Nat) : (DW.ofNat k x).toNat = x % 2 ^ levelWidth k := by
  induction k generalizing x with
  | zero => simp [DW.ofNat, levelWidth]
  | succ k ih =>
    rw [DW.ofNat, DW.toNat_pair, ih, ih, levelWidth_succ, pow_add, Nat.mod_mul, Nat.mul_comm, Nat.add_comm]

end Sys2Proof.Machine
end

