-- ==== Sys2Proof/Laws/State.lean ====
section
/-! SUPPORT. One lemma per field per named update of the state, each true by rfl, and the reads of registers after an update. -/

namespace Sys2Proof.Machine

/-! ## setReg -/

@[simp] theorem setReg_cfg (s : State) (r : Reg) (ws : List (Option Word)) : (s.setReg r ws).cfg = s.cfg := rfl
@[simp] theorem setReg_regs (s : State) (r : Reg) (ws : List (Option Word)) : (s.setReg r ws).regs = s.regs.set r.toNat ws r.isLt := rfl
@[simp] theorem setReg_data (s : State) (r : Reg) (ws : List (Option Word)) : (s.setReg r ws).data = s.data := rfl
@[simp] theorem setReg_ov (s : State) (r : Reg) (ws : List (Option Word)) : (s.setReg r ws).ov = s.ov := rfl
@[simp] theorem setReg_nil (s : State) (r : Reg) (ws : List (Option Word)) : (s.setReg r ws).nil = s.nil := rfl
@[simp] theorem setReg_fault (s : State) (r : Reg) (ws : List (Option Word)) : (s.setReg r ws).fault = s.fault := rfl
@[simp] theorem setReg_cause (s : State) (r : Reg) (ws : List (Option Word)) : (s.setReg r ws).cause = s.cause := rfl
@[simp] theorem setReg_fcmd (s : State) (r : Reg) (ws : List (Option Word)) : (s.setReg r ws).fcmd = s.fcmd := rfl
@[simp] theorem setReg_seqOpen (s : State) (r : Reg) (ws : List (Option Word)) : (s.setReg r ws).seqOpen = s.seqOpen := rfl
@[simp] theorem setReg_seqRd (s : State) (r : Reg) (ws : List (Option Word)) : (s.setReg r ws).seqRd = s.seqRd := rfl
@[simp] theorem setReg_seqTS (s : State) (r : Reg) (ws : List (Option Word)) : (s.setReg r ws).seqTS = s.seqTS := rfl
@[simp] theorem setReg_seqSS (s : State) (r : Reg) (ws : List (Option Word)) : (s.setReg r ws).seqSS = s.seqSS := rfl
@[simp] theorem setReg_seqBuf (s : State) (r : Reg) (ws : List (Option Word)) : (s.setReg r ws).seqBuf = s.seqBuf := rfl
@[simp] theorem setReg_hostIn (s : State) (r : Reg) (ws : List (Option Word)) : (s.setReg r ws).hostIn = s.hostIn := rfl
@[simp] theorem setReg_hostOut (s : State) (r : Reg) (ws : List (Option Word)) : (s.setReg r ws).hostOut = s.hostOut := rfl
@[simp] theorem setReg_draws (s : State) (r : Reg) (ws : List (Option Word)) : (s.setReg r ws).draws = s.draws := rfl

/-! ## writeWord -/

@[simp] theorem writeWord_cfg (s : State) (r : Reg) (k : Nat) (w : Word) : (s.writeWord r k w).cfg = s.cfg := rfl
@[simp] theorem writeWord_data (s : State) (r : Reg) (k : Nat) (w : Word) : (s.writeWord r k w).data = s.data := rfl
@[simp] theorem writeWord_ov (s : State) (r : Reg) (k : Nat) (w : Word) : (s.writeWord r k w).ov = s.ov := rfl
@[simp] theorem writeWord_nil (s : State) (r : Reg) (k : Nat) (w : Word) : (s.writeWord r k w).nil = s.nil := rfl
@[simp] theorem writeWord_fault (s : State) (r : Reg) (k : Nat) (w : Word) : (s.writeWord r k w).fault = s.fault := rfl
@[simp] theorem writeWord_cause (s : State) (r : Reg) (k : Nat) (w : Word) : (s.writeWord r k w).cause = s.cause := rfl
@[simp] theorem writeWord_fcmd (s : State) (r : Reg) (k : Nat) (w : Word) : (s.writeWord r k w).fcmd = s.fcmd := rfl
@[simp] theorem writeWord_seqOpen (s : State) (r : Reg) (k : Nat) (w : Word) : (s.writeWord r k w).seqOpen = s.seqOpen := rfl
@[simp] theorem writeWord_seqRd (s : State) (r : Reg) (k : Nat) (w : Word) : (s.writeWord r k w).seqRd = s.seqRd := rfl
@[simp] theorem writeWord_seqTS (s : State) (r : Reg) (k : Nat) (w : Word) : (s.writeWord r k w).seqTS = s.seqTS := rfl
@[simp] theorem writeWord_seqSS (s : State) (r : Reg) (k : Nat) (w : Word) : (s.writeWord r k w).seqSS = s.seqSS := rfl
@[simp] theorem writeWord_seqBuf (s : State) (r : Reg) (k : Nat) (w : Word) : (s.writeWord r k w).seqBuf = s.seqBuf := rfl
@[simp] theorem writeWord_hostIn (s : State) (r : Reg) (k : Nat) (w : Word) : (s.writeWord r k w).hostIn = s.hostIn := rfl
@[simp] theorem writeWord_hostOut (s : State) (r : Reg) (k : Nat) (w : Word) : (s.writeWord r k w).hostOut = s.hostOut := rfl
@[simp] theorem writeWord_draws (s : State) (r : Reg) (k : Nat) (w : Word) : (s.writeWord r k w).draws = s.draws := rfl

/-! ## writeV -/

@[simp] theorem writeV_cfg {N : Nat} (s : State) (r : Reg) (x : BitVec N) : (s.writeV r x).cfg = s.cfg := rfl
@[simp] theorem writeV_data {N : Nat} (s : State) (r : Reg) (x : BitVec N) : (s.writeV r x).data = s.data := rfl
@[simp] theorem writeV_ov {N : Nat} (s : State) (r : Reg) (x : BitVec N) : (s.writeV r x).ov = s.ov := rfl
@[simp] theorem writeV_nil {N : Nat} (s : State) (r : Reg) (x : BitVec N) : (s.writeV r x).nil = s.nil := rfl
@[simp] theorem writeV_fault {N : Nat} (s : State) (r : Reg) (x : BitVec N) : (s.writeV r x).fault = s.fault := rfl
@[simp] theorem writeV_cause {N : Nat} (s : State) (r : Reg) (x : BitVec N) : (s.writeV r x).cause = s.cause := rfl
@[simp] theorem writeV_fcmd {N : Nat} (s : State) (r : Reg) (x : BitVec N) : (s.writeV r x).fcmd = s.fcmd := rfl
@[simp] theorem writeV_seqOpen {N : Nat} (s : State) (r : Reg) (x : BitVec N) : (s.writeV r x).seqOpen = s.seqOpen := rfl
@[simp] theorem writeV_seqRd {N : Nat} (s : State) (r : Reg) (x : BitVec N) : (s.writeV r x).seqRd = s.seqRd := rfl
@[simp] theorem writeV_seqTS {N : Nat} (s : State) (r : Reg) (x : BitVec N) : (s.writeV r x).seqTS = s.seqTS := rfl
@[simp] theorem writeV_seqSS {N : Nat} (s : State) (r : Reg) (x : BitVec N) : (s.writeV r x).seqSS = s.seqSS := rfl
@[simp] theorem writeV_seqBuf {N : Nat} (s : State) (r : Reg) (x : BitVec N) : (s.writeV r x).seqBuf = s.seqBuf := rfl
@[simp] theorem writeV_hostIn {N : Nat} (s : State) (r : Reg) (x : BitVec N) : (s.writeV r x).hostIn = s.hostIn := rfl
@[simp] theorem writeV_hostOut {N : Nat} (s : State) (r : Reg) (x : BitVec N) : (s.writeV r x).hostOut = s.hostOut := rfl
@[simp] theorem writeV_draws {N : Nat} (s : State) (r : Reg) (x : BitVec N) : (s.writeV r x).draws = s.draws := rfl

/-! ## setData -/

@[simp] theorem setData_cfg (s : State) (w : Word) : (s.setData w).cfg = s.cfg := rfl
@[simp] theorem setData_regs (s : State) (w : Word) : (s.setData w).regs = s.regs := rfl
@[simp] theorem setData_data (s : State) (w : Word) : (s.setData w).data = some w := rfl
@[simp] theorem setData_ov (s : State) (w : Word) : (s.setData w).ov = s.ov := rfl
@[simp] theorem setData_nil (s : State) (w : Word) : (s.setData w).nil = s.nil := rfl
@[simp] theorem setData_fault (s : State) (w : Word) : (s.setData w).fault = s.fault := rfl
@[simp] theorem setData_cause (s : State) (w : Word) : (s.setData w).cause = s.cause := rfl
@[simp] theorem setData_fcmd (s : State) (w : Word) : (s.setData w).fcmd = s.fcmd := rfl
@[simp] theorem setData_seqOpen (s : State) (w : Word) : (s.setData w).seqOpen = s.seqOpen := rfl
@[simp] theorem setData_seqRd (s : State) (w : Word) : (s.setData w).seqRd = s.seqRd := rfl
@[simp] theorem setData_seqTS (s : State) (w : Word) : (s.setData w).seqTS = s.seqTS := rfl
@[simp] theorem setData_seqSS (s : State) (w : Word) : (s.setData w).seqSS = s.seqSS := rfl
@[simp] theorem setData_seqBuf (s : State) (w : Word) : (s.setData w).seqBuf = s.seqBuf := rfl
@[simp] theorem setData_hostIn (s : State) (w : Word) : (s.setData w).hostIn = s.hostIn := rfl
@[simp] theorem setData_hostOut (s : State) (w : Word) : (s.setData w).hostOut = s.hostOut := rfl
@[simp] theorem setData_draws (s : State) (w : Word) : (s.setData w).draws = s.draws := rfl
@[simp] theorem setData_reg (s : State) (w : Word) (q : Reg) : (s.setData w).reg q = s.reg q := rfl

/-! ## setOV -/

@[simp] theorem setOV_cfg (s : State) (b : Bool) : (s.setOV b).cfg = s.cfg := rfl
@[simp] theorem setOV_regs (s : State) (b : Bool) : (s.setOV b).regs = s.regs := rfl
@[simp] theorem setOV_data (s : State) (b : Bool) : (s.setOV b).data = s.data := rfl
@[simp] theorem setOV_ov (s : State) (b : Bool) : (s.setOV b).ov = b := rfl
@[simp] theorem setOV_nil (s : State) (b : Bool) : (s.setOV b).nil = s.nil := rfl
@[simp] theorem setOV_fault (s : State) (b : Bool) : (s.setOV b).fault = s.fault := rfl
@[simp] theorem setOV_cause (s : State) (b : Bool) : (s.setOV b).cause = s.cause := rfl
@[simp] theorem setOV_fcmd (s : State) (b : Bool) : (s.setOV b).fcmd = s.fcmd := rfl
@[simp] theorem setOV_seqOpen (s : State) (b : Bool) : (s.setOV b).seqOpen = s.seqOpen := rfl
@[simp] theorem setOV_seqRd (s : State) (b : Bool) : (s.setOV b).seqRd = s.seqRd := rfl
@[simp] theorem setOV_seqTS (s : State) (b : Bool) : (s.setOV b).seqTS = s.seqTS := rfl
@[simp] theorem setOV_seqSS (s : State) (b : Bool) : (s.setOV b).seqSS = s.seqSS := rfl
@[simp] theorem setOV_seqBuf (s : State) (b : Bool) : (s.setOV b).seqBuf = s.seqBuf := rfl
@[simp] theorem setOV_hostIn (s : State) (b : Bool) : (s.setOV b).hostIn = s.hostIn := rfl
@[simp] theorem setOV_hostOut (s : State) (b : Bool) : (s.setOV b).hostOut = s.hostOut := rfl
@[simp] theorem setOV_draws (s : State) (b : Bool) : (s.setOV b).draws = s.draws := rfl
@[simp] theorem setOV_reg (s : State) (b : Bool) (q : Reg) : (s.setOV b).reg q = s.reg q := rfl

/-! ## setNIL -/

@[simp] theorem setNIL_cfg (s : State) (b : Bool) : (s.setNIL b).cfg = s.cfg := rfl
@[simp] theorem setNIL_regs (s : State) (b : Bool) : (s.setNIL b).regs = s.regs := rfl
@[simp] theorem setNIL_data (s : State) (b : Bool) : (s.setNIL b).data = s.data := rfl
@[simp] theorem setNIL_ov (s : State) (b : Bool) : (s.setNIL b).ov = s.ov := rfl
@[simp] theorem setNIL_nil (s : State) (b : Bool) : (s.setNIL b).nil = b := rfl
@[simp] theorem setNIL_fault (s : State) (b : Bool) : (s.setNIL b).fault = s.fault := rfl
@[simp] theorem setNIL_cause (s : State) (b : Bool) : (s.setNIL b).cause = s.cause := rfl
@[simp] theorem setNIL_fcmd (s : State) (b : Bool) : (s.setNIL b).fcmd = s.fcmd := rfl
@[simp] theorem setNIL_seqOpen (s : State) (b : Bool) : (s.setNIL b).seqOpen = s.seqOpen := rfl
@[simp] theorem setNIL_seqRd (s : State) (b : Bool) : (s.setNIL b).seqRd = s.seqRd := rfl
@[simp] theorem setNIL_seqTS (s : State) (b : Bool) : (s.setNIL b).seqTS = s.seqTS := rfl
@[simp] theorem setNIL_seqSS (s : State) (b : Bool) : (s.setNIL b).seqSS = s.seqSS := rfl
@[simp] theorem setNIL_seqBuf (s : State) (b : Bool) : (s.setNIL b).seqBuf = s.seqBuf := rfl
@[simp] theorem setNIL_hostIn (s : State) (b : Bool) : (s.setNIL b).hostIn = s.hostIn := rfl
@[simp] theorem setNIL_hostOut (s : State) (b : Bool) : (s.setNIL b).hostOut = s.hostOut := rfl
@[simp] theorem setNIL_draws (s : State) (b : Bool) : (s.setNIL b).draws = s.draws := rfl
@[simp] theorem setNIL_reg (s : State) (b : Bool) (q : Reg) : (s.setNIL b).reg q = s.reg q := rfl

/-! ## openSeq -/

@[simp] theorem openSeq_cfg (s : State) (rd : Reg) (ts ss : Sign) : (s.openSeq rd ts ss).cfg = s.cfg := rfl
@[simp] theorem openSeq_regs (s : State) (rd : Reg) (ts ss : Sign) : (s.openSeq rd ts ss).regs = s.regs := rfl
@[simp] theorem openSeq_data (s : State) (rd : Reg) (ts ss : Sign) : (s.openSeq rd ts ss).data = s.data := rfl
@[simp] theorem openSeq_ov (s : State) (rd : Reg) (ts ss : Sign) : (s.openSeq rd ts ss).ov = s.ov := rfl
@[simp] theorem openSeq_nil (s : State) (rd : Reg) (ts ss : Sign) : (s.openSeq rd ts ss).nil = s.nil := rfl
@[simp] theorem openSeq_fault (s : State) (rd : Reg) (ts ss : Sign) : (s.openSeq rd ts ss).fault = s.fault := rfl
@[simp] theorem openSeq_cause (s : State) (rd : Reg) (ts ss : Sign) : (s.openSeq rd ts ss).cause = s.cause := rfl
@[simp] theorem openSeq_fcmd (s : State) (rd : Reg) (ts ss : Sign) : (s.openSeq rd ts ss).fcmd = s.fcmd := rfl
@[simp] theorem openSeq_seqOpen (s : State) (rd : Reg) (ts ss : Sign) : (s.openSeq rd ts ss).seqOpen = true := rfl
@[simp] theorem openSeq_seqRd (s : State) (rd : Reg) (ts ss : Sign) : (s.openSeq rd ts ss).seqRd = rd := rfl
@[simp] theorem openSeq_seqTS (s : State) (rd : Reg) (ts ss : Sign) : (s.openSeq rd ts ss).seqTS = ts := rfl
@[simp] theorem openSeq_seqSS (s : State) (rd : Reg) (ts ss : Sign) : (s.openSeq rd ts ss).seqSS = ss := rfl
@[simp] theorem openSeq_seqBuf (s : State) (rd : Reg) (ts ss : Sign) : (s.openSeq rd ts ss).seqBuf = [] := rfl
@[simp] theorem openSeq_hostIn (s : State) (rd : Reg) (ts ss : Sign) : (s.openSeq rd ts ss).hostIn = s.hostIn := rfl
@[simp] theorem openSeq_hostOut (s : State) (rd : Reg) (ts ss : Sign) : (s.openSeq rd ts ss).hostOut = s.hostOut := rfl
@[simp] theorem openSeq_draws (s : State) (rd : Reg) (ts ss : Sign) : (s.openSeq rd ts ss).draws = s.draws := rfl
@[simp] theorem openSeq_reg (s : State) (rd : Reg) (ts ss : Sign) (q : Reg) : (s.openSeq rd ts ss).reg q = s.reg q := rfl

/-! ## pushSeq -/

@[simp] theorem pushSeq_cfg (s : State) (w : Word) : (s.pushSeq w).cfg = s.cfg := rfl
@[simp] theorem pushSeq_regs (s : State) (w : Word) : (s.pushSeq w).regs = s.regs := rfl
@[simp] theorem pushSeq_data (s : State) (w : Word) : (s.pushSeq w).data = s.data := rfl
@[simp] theorem pushSeq_ov (s : State) (w : Word) : (s.pushSeq w).ov = s.ov := rfl
@[simp] theorem pushSeq_nil (s : State) (w : Word) : (s.pushSeq w).nil = s.nil := rfl
@[simp] theorem pushSeq_fault (s : State) (w : Word) : (s.pushSeq w).fault = s.fault := rfl
@[simp] theorem pushSeq_cause (s : State) (w : Word) : (s.pushSeq w).cause = s.cause := rfl
@[simp] theorem pushSeq_fcmd (s : State) (w : Word) : (s.pushSeq w).fcmd = s.fcmd := rfl
@[simp] theorem pushSeq_seqOpen (s : State) (w : Word) : (s.pushSeq w).seqOpen = s.seqOpen := rfl
@[simp] theorem pushSeq_seqRd (s : State) (w : Word) : (s.pushSeq w).seqRd = s.seqRd := rfl
@[simp] theorem pushSeq_seqTS (s : State) (w : Word) : (s.pushSeq w).seqTS = s.seqTS := rfl
@[simp] theorem pushSeq_seqSS (s : State) (w : Word) : (s.pushSeq w).seqSS = s.seqSS := rfl
@[simp] theorem pushSeq_seqBuf (s : State) (w : Word) : (s.pushSeq w).seqBuf = s.seqBuf ++ [w] := rfl
@[simp] theorem pushSeq_hostIn (s : State) (w : Word) : (s.pushSeq w).hostIn = s.hostIn := rfl
@[simp] theorem pushSeq_hostOut (s : State) (w : Word) : (s.pushSeq w).hostOut = s.hostOut := rfl
@[simp] theorem pushSeq_draws (s : State) (w : Word) : (s.pushSeq w).draws = s.draws := rfl
@[simp] theorem pushSeq_reg (s : State) (w : Word) (q : Reg) : (s.pushSeq w).reg q = s.reg q := rfl

/-! ## closeSeq -/

@[simp] theorem closeSeq_cfg (s : State) : s.closeSeq.cfg = s.cfg := rfl
@[simp] theorem closeSeq_regs (s : State) : s.closeSeq.regs = s.regs := rfl
@[simp] theorem closeSeq_data (s : State) : s.closeSeq.data = s.data := rfl
@[simp] theorem closeSeq_ov (s : State) : s.closeSeq.ov = s.ov := rfl
@[simp] theorem closeSeq_nil (s : State) : s.closeSeq.nil = s.nil := rfl
@[simp] theorem closeSeq_fault (s : State) : s.closeSeq.fault = s.fault := rfl
@[simp] theorem closeSeq_cause (s : State) : s.closeSeq.cause = s.cause := rfl
@[simp] theorem closeSeq_fcmd (s : State) : s.closeSeq.fcmd = s.fcmd := rfl
@[simp] theorem closeSeq_seqOpen (s : State) : s.closeSeq.seqOpen = false := rfl
@[simp] theorem closeSeq_seqRd (s : State) : s.closeSeq.seqRd = 0 := rfl
@[simp] theorem closeSeq_seqTS (s : State) : s.closeSeq.seqTS = .u := rfl
@[simp] theorem closeSeq_seqSS (s : State) : s.closeSeq.seqSS = .u := rfl
@[simp] theorem closeSeq_seqBuf (s : State) : s.closeSeq.seqBuf = [] := rfl
@[simp] theorem closeSeq_hostIn (s : State) : s.closeSeq.hostIn = s.hostIn := rfl
@[simp] theorem closeSeq_hostOut (s : State) : s.closeSeq.hostOut = s.hostOut := rfl
@[simp] theorem closeSeq_draws (s : State) : s.closeSeq.draws = s.draws := rfl
@[simp] theorem closeSeq_reg (s : State) (q : Reg) : s.closeSeq.reg q = s.reg q := rfl

/-! ## enterFault -/

@[simp] theorem enterFault_cfg (k : Cause) (c : CmdWord) (s : State) : (enterFault k c s).cfg = s.cfg := rfl
@[simp] theorem enterFault_regs (k : Cause) (c : CmdWord) (s : State) : (enterFault k c s).regs = s.regs := rfl
@[simp] theorem enterFault_data (k : Cause) (c : CmdWord) (s : State) : (enterFault k c s).data = s.data := rfl
@[simp] theorem enterFault_ov (k : Cause) (c : CmdWord) (s : State) : (enterFault k c s).ov = s.ov := rfl
@[simp] theorem enterFault_nil (k : Cause) (c : CmdWord) (s : State) : (enterFault k c s).nil = s.nil := rfl
@[simp] theorem enterFault_fault (k : Cause) (c : CmdWord) (s : State) : (enterFault k c s).fault = true := rfl
@[simp] theorem enterFault_cause (k : Cause) (c : CmdWord) (s : State) : (enterFault k c s).cause = k.code := rfl
@[simp] theorem enterFault_fcmd (k : Cause) (c : CmdWord) (s : State) : (enterFault k c s).fcmd = c := rfl
@[simp] theorem enterFault_seqOpen (k : Cause) (c : CmdWord) (s : State) : (enterFault k c s).seqOpen = s.seqOpen := rfl
@[simp] theorem enterFault_seqRd (k : Cause) (c : CmdWord) (s : State) : (enterFault k c s).seqRd = s.seqRd := rfl
@[simp] theorem enterFault_seqTS (k : Cause) (c : CmdWord) (s : State) : (enterFault k c s).seqTS = s.seqTS := rfl
@[simp] theorem enterFault_seqSS (k : Cause) (c : CmdWord) (s : State) : (enterFault k c s).seqSS = s.seqSS := rfl
@[simp] theorem enterFault_seqBuf (k : Cause) (c : CmdWord) (s : State) : (enterFault k c s).seqBuf = s.seqBuf := rfl
@[simp] theorem enterFault_hostIn (k : Cause) (c : CmdWord) (s : State) : (enterFault k c s).hostIn = s.hostIn := rfl
@[simp] theorem enterFault_hostOut (k : Cause) (c : CmdWord) (s : State) : (enterFault k c s).hostOut = s.hostOut := rfl
@[simp] theorem enterFault_draws (k : Cause) (c : CmdWord) (s : State) : (enterFault k c s).draws = s.draws := rfl
@[simp] theorem enterFault_reg (k : Cause) (c : CmdWord) (s : State) (q : Reg) : (enterFault k c s).reg q = s.reg q := rfl

/-! ## reply -/

@[simp] theorem reply_cfg (s : State) (v : BusWord) : (s.reply v).cfg = s.cfg := rfl
@[simp] theorem reply_regs (s : State) (v : BusWord) : (s.reply v).regs = s.regs := rfl
@[simp] theorem reply_data (s : State) (v : BusWord) : (s.reply v).data = s.data := rfl
@[simp] theorem reply_ov (s : State) (v : BusWord) : (s.reply v).ov = s.ov := rfl
@[simp] theorem reply_nil (s : State) (v : BusWord) : (s.reply v).nil = s.nil := rfl
@[simp] theorem reply_fault (s : State) (v : BusWord) : (s.reply v).fault = s.fault := rfl
@[simp] theorem reply_cause (s : State) (v : BusWord) : (s.reply v).cause = s.cause := rfl
@[simp] theorem reply_fcmd (s : State) (v : BusWord) : (s.reply v).fcmd = s.fcmd := rfl
@[simp] theorem reply_seqOpen (s : State) (v : BusWord) : (s.reply v).seqOpen = s.seqOpen := rfl
@[simp] theorem reply_seqRd (s : State) (v : BusWord) : (s.reply v).seqRd = s.seqRd := rfl
@[simp] theorem reply_seqTS (s : State) (v : BusWord) : (s.reply v).seqTS = s.seqTS := rfl
@[simp] theorem reply_seqSS (s : State) (v : BusWord) : (s.reply v).seqSS = s.seqSS := rfl
@[simp] theorem reply_seqBuf (s : State) (v : BusWord) : (s.reply v).seqBuf = s.seqBuf := rfl
@[simp] theorem reply_hostIn (s : State) (v : BusWord) : (s.reply v).hostIn = s.hostIn := rfl
@[simp] theorem reply_hostOut (s : State) (v : BusWord) : (s.reply v).hostOut = v :: s.hostOut := rfl
@[simp] theorem reply_draws (s : State) (v : BusWord) : (s.reply v).draws = s.draws := rfl
@[simp] theorem reply_reg (s : State) (v : BusWord) (q : Reg) : (s.reply v).reg q = s.reg q := rfl

/-! ## Reads of registers -/

@[simp] theorem setReg_reg_same (s : State) (r : Reg) (ws : List (Option Word)) : (s.setReg r ws).reg r = ws := by
  simp [State.reg, State.setReg]

theorem setReg_reg_ne (s : State) {r q : Reg} (ws : List (Option Word)) (h : q ≠ r) : (s.setReg r ws).reg q = s.reg q := by
  have : r.toNat ≠ q.toNat := fun e => h (BitVec.eq_of_toNat_eq e.symm)
  simp [State.reg, State.setReg, Vector.getElem_set_ne, this]

@[simp] theorem writeV_reg_same {N : Nat} (s : State) (r : Reg) (x : BitVec N) :
    (s.writeV r x).reg r = (toWords s.cfg.words x.toNat).map some := setReg_reg_same ..

theorem writeV_reg_ne {N : Nat} (s : State) {r q : Reg} (x : BitVec N) (h : q ≠ r) : (s.writeV r x).reg q = s.reg q :=
  setReg_reg_ne s _ h

@[simp] theorem writeWord_reg_same (s : State) (r : Reg) (k : Nat) (w : Word) :
    (s.writeWord r k w).reg r = (s.reg r).set k (some w) := setReg_reg_same ..

theorem writeWord_reg_ne (s : State) {r q : Reg} (k : Nat) (w : Word) (h : q ≠ r) :
    (s.writeWord r k w).reg q = s.reg q := setReg_reg_ne s _ h

@[simp] theorem resetOf_reg (c : Config) (r : Reg) : (State.resetOf c).reg r = List.replicate c.words none := by
  simp [State.reg, State.resetOf]

@[simp] theorem afterReset_reg (s : State) (r : Reg) : s.afterReset.reg r = List.replicate s.cfg.words none :=
  resetOf_reg s.cfg r

end Sys2Proof.Machine
end

