-- ==== Sys2Proof/Laws/Words.lean ====
section
/-! SUPPORT. Words and patterns: `toWords` and `wordsVal` are inverse, word k of a pattern is its bits 64k+63 to 64k, and
what a register that holds a pattern reads as. -/

namespace Sys2Proof.Machine

theorem wordsVal_lt (ws : List Word) : wordsVal ws < 2 ^ (64 * ws.length) := by
  induction ws with
  | nil => simp [wordsVal]
  | cons w ws ih =>
    have hw := w.isLt
    have : 2 ^ (64 * (ws.length + 1)) = 2 ^ 64 * 2 ^ (64 * ws.length) := by rw [← pow_add]; ring_nf
    simp only [wordsVal, List.length_cons, this]
    generalize 2 ^ (64 * ws.length) = P at *
    omega

theorem wordsVal_append (xs ys : List Word) : wordsVal (xs ++ ys) = wordsVal xs + 2 ^ (64 * xs.length) * wordsVal ys := by
  induction xs with
  | nil => simp [wordsVal]
  | cons w ws ih =>
    have : 2 ^ (64 * (ws.length + 1)) = 2 ^ 64 * 2 ^ (64 * ws.length) := by rw [← pow_add]; ring_nf
    simp only [List.cons_append, wordsVal, ih, List.length_cons, this]
    ring

@[simp] theorem toWords_length (n x : Nat) : (toWords n x).length = n := by
  induction n generalizing x with
  | zero => rfl
  | succ n ih => simp [toWords, ih]

@[simp] theorem wordsVal_toWords (n x : Nat) : wordsVal (toWords n x) = x % 2 ^ (64 * n) := by
  induction n generalizing x with
  | zero => simp [toWords, wordsVal, Nat.mod_one]
  | succ n ih =>
    have : 2 ^ (64 * (n + 1)) = 2 ^ 64 * 2 ^ (64 * n) := by rw [← pow_add]; ring_nf
    simp only [toWords, wordsVal, ih, BitVec.toNat_ofNat, this]
    exact Nat.mod_mul.symm

theorem toWords_wordsVal (ws : List Word) : toWords ws.length (wordsVal ws) = ws := by
  induction ws with
  | nil => rfl
  | cons w ws ih =>
    have hw := w.isLt
    have h1 : (w.toNat + 2 ^ 64 * wordsVal ws) / 2 ^ 64 = wordsVal ws := by omega
    have h2 : BitVec.ofNat 64 (w.toNat + 2 ^ 64 * wordsVal ws) = w := by
      apply BitVec.eq_of_toNat_eq
      simp only [BitVec.toNat_ofNat]
      omega
    simp only [List.length_cons, toWords, wordsVal, h1, h2, ih]

theorem toWords_getElem? (n x k : Nat) (h : k < n) : (toWords n x)[k]? = some (BitVec.ofNat 64 (x / 2 ^ (64 * k))) := by
  induction n generalizing x k with
  | zero => omega
  | succ n ih =>
    cases k with
    | zero => simp [toWords]
    | succ k =>
      have : 2 ^ (64 * (k + 1)) = 2 ^ 64 * 2 ^ (64 * k) := by rw [← pow_add]; ring_nf
      simp only [toWords, List.getElem?_cons_succ, ih _ k (by omega), this, Nat.div_div_eq_div_mul]

/-- Word k of a pattern (R11), as a quotient. -/
theorem extractWord_eq {N : Nat} (x : BitVec N) (k : Nat) :
    x.extractLsb' (64 * k) 64 = BitVec.ofNat 64 (x.toNat / 2 ^ (64 * k)) := by
  apply BitVec.eq_of_toNat_eq
  simp [BitVec.extractLsb'_toNat, Nat.shiftRight_eq_div_pow]

@[simp] theorem allValid_map_some (ws : List Word) : allValid (ws.map some) = some ws := by
  induction ws with
  | nil => rfl
  | cons w ws ih => simp [allValid, ih]

theorem allValid_eq_some {l : List (Option Word)} {ws : List Word} (h : allValid l = some ws) : l = ws.map some := by
  induction l generalizing ws with
  | nil => simp [allValid] at h; simp [← h]
  | cons o l ih =>
    cases o with
    | none => simp [allValid] at h
    | some w =>
      cases hl : allValid l with
      | none => simp [allValid, hl] at h
      | some vs =>
        simp only [allValid, hl, Option.map_some, Option.some.injEq] at h
        rw [← h, ih hl]
        rfl

/-- A register has an invalid word exactly where `allValid` gives none (R24). -/
theorem allValid_eq_none_iff (l : List (Option Word)) : allValid l = none ↔ ∃ k : Nat, l[k]? = some none := by
  induction l with
  | nil => simp [allValid]
  | cons o l ih =>
    cases o with
    | none => exact ⟨fun _ => ⟨0, rfl⟩, fun _ => rfl⟩
    | some w =>
      simp only [allValid, Option.map_eq_none_iff, ih]
      constructor
      · rintro ⟨k, hk⟩
        exact ⟨k + 1, by simpa using hk⟩
      · rintro ⟨k, hk⟩
        cases k with
        | zero => simp at hk
        | succ k => exact ⟨k, by simpa using hk⟩

theorem words_pos (c : Config) : 0 < c.words := Nat.pow_pos (by decide)

theorem width_pos (c : Config) : 0 < c.width := by
  have := words_pos c
  simp only [Config.width]
  omega

theorem width_eq (c : Config) : c.width = 64 * c.words := rfl

/-- The words of a register that holds x (R11, R24). -/
theorem reg_of_holds {N : Nat} {s : State} {r : Reg} {x : BitVec N} (h : Holds s r x) :
    s.reg r = (toWords s.cfg.words x.toNat).map some := by
  obtain ⟨-, hl, hw⟩ := h
  apply List.ext_getElem?
  intro k
  by_cases hk : k < s.cfg.words
  · rw [hw k hk, List.getElem?_map, toWords_getElem? _ _ _ hk, extractWord_eq]
    rfl
  · rw [List.getElem?_eq_none (by omega), List.getElem?_eq_none (by simp; omega)]

/-- A register that holds x reads as x (R14). -/
theorem readV_of_holds {N : Nat} {s : State} {r : Reg} {x : BitVec N} (h : Holds s r x) : readV N s r = .ok x := by
  have hN : N = 64 * s.cfg.words := h.1.symm
  simp only [readV, reg_of_holds h, allValid_map_some]
  congr 1
  apply BitVec.eq_of_toNat_eq
  have := x.isLt
  simp only [BitVec.toNat_ofNat, wordsVal_toWords, ← hN]
  simp

/-- A register that holds x has its low word valid (R76, R77). -/
theorem holdsWord_of_holds {N : Nat} {s : State} {r : Reg} {x : BitVec N} (h : Holds s r x) {k : Nat}
    (hk : k < s.cfg.words) : HoldsWord s r k (x.extractLsb' (64 * k) 64) := h.2.2 k hk

/-- A full read of a register with an invalid word faults (R24). -/
theorem readV_of_invalid {N : Nat} {s : State} {r : Reg} (h : HasInvalid s r) : readV N s r = .error .uninit := by
  simp [readV, (allValid_eq_none_iff _).2 h]

theorem readWord_of_holds {s : State} {r : Reg} {k : Nat} {w : Word} (h : HoldsWord s r k w) : readWord s r k = .ok w := by
  simp only [HoldsWord] at h
  simp [readWord, h]

theorem readWord_of_invalid {s : State} {r : Reg} {k : Nat} (h : InvalidWord s r k) : readWord s r k = .error .uninit := by
  simp only [InvalidWord] at h
  simp [readWord, h]

/-- What a whole-register write leaves in the register (R14, R100). -/
theorem writeV_holds {N : Nat} (s : State) (r : Reg) (x : BitVec N) (hN : s.cfg.width = N) : Holds (s.writeV r x) r x := by
  refine ⟨hN, by simp, fun k hk => ?_⟩
  rw [writeV_reg_same, List.getElem?_map, toWords_getElem? _ _ _ (by simpa using hk), extractWord_eq]
  rfl

/-- A register keeps what it holds when another one is written. -/
theorem writeV_holds_ne {N M : Nat} {s : State} {r q : Reg} (x : BitVec N) {y : BitVec M} (hq : q ≠ r) (h : Holds s q y) :
    Holds (s.writeV r x) q y := by
  obtain ⟨h1, h2, h3⟩ := h
  exact ⟨h1, by rw [writeV_reg_ne s x hq]; exact h2, fun k hk => by rw [writeV_reg_ne s x hq]; exact h3 k hk⟩

/-- A well-formed register either holds a pattern or has an invalid word. -/
theorem holds_or_hasInvalid {s : State} (hs : s.Wf) (r : Reg) :
    (∃ x : BitVec s.cfg.width, Holds s r x) ∨ HasInvalid s r := by
  cases ha : allValid (s.reg r) with
  | none => exact .inr ((allValid_eq_none_iff _).1 ha)
  | some ws =>
    have hr := allValid_eq_some ha
    have hl : ws.length = s.cfg.words := by simpa [hr] using hs r
    refine .inl ⟨BitVec.ofNat s.cfg.width (wordsVal ws), rfl, hs r, fun k hk => ?_⟩
    have hlt : wordsVal ws < 2 ^ s.cfg.width := by rw [width_eq, ← hl]; exact wordsVal_lt ws
    rw [extractWord_eq, hr, List.getElem?_map, BitVec.toNat_ofNat, Nat.mod_eq_of_lt hlt]
    conv => lhs; rw [← toWords_wordsVal ws]
    rw [toWords_getElem? _ _ _ (by omega)]
    rfl

end Sys2Proof.Machine
end

