-- ==== Sys2Proof/Laws/Ops.lean ====
section
/-! SUPPORT. For each shared operation, one lemma that says once everything it can do. -/

namespace Sys2Proof.Machine

/-! ## Commands and checks -/

@[simp] theorem command_ok (i : Instr) (s t : State) : command i s (.ok t) = .next t := rfl

@[simp] theorem command_error (i : Instr) (s : State) (k : Cause) :
    command i s (.error k) = .next (enterFault k (encode i) s) := rfl

/-- A command always answers a next state: the one its body gives, or the fault state entered from the state before. -/
theorem command_eq_next_iff {i : Instr} {s t : State} {body : Except Cause State} :
    command i s body = .next t ↔ body = .ok t ∨ ∃ k, body = .error k ∧ t = enterFault k (encode i) s := by
  cases body with
  | ok u => simp
  | error k => simp [eq_comm]

theorem command_answers_next (i : Instr) (s : State) (body : Except Cause State) : ∃ t, command i s body = .next t := by
  cases body with
  | ok u => exact ⟨u, rfl⟩
  | error k => exact ⟨_, rfl⟩

@[simp] theorem bind_ok {α β : Type} (a : α) (f : α → Except Cause β) : (Except.ok a >>= f) = f a := rfl

@[simp] theorem bind_error {α β : Type} (k : Cause) (f : α → Except Cause β) :
    ((Except.error k : Except Cause α) >>= f) = .error k := rfl

theorem bind_eq_ok_iff {α β : Type} {x : Except Cause α} {f : α → Except Cause β} {b : β} :
    (x >>= f) = .ok b ↔ ∃ a, x = .ok a ∧ f a = .ok b := by
  cases x with
  | ok a => simp
  | error k => simp

theorem bind_eq_error_iff {α β : Type} {x : Except Cause α} {f : α → Except Cause β} {k : Cause} :
    (x >>= f) = .error k ↔ x = .error k ∨ ∃ a, x = .ok a ∧ f a = .error k := by
  cases x with
  | ok a => simp
  | error k => simp

@[simp] theorem check_true (k : Cause) : check true k = .ok () := rfl

@[simp] theorem check_false (k : Cause) : check false k = .error k := rfl

theorem check_eq_ok_iff {b : Bool} {k : Cause} {u : Unit} : check b k = .ok u ↔ b = true := by
  cases b <;> simp [check]

theorem check_eq_error_iff {b : Bool} {k j : Cause} : check b k = .error j ↔ b = false ∧ j = k := by
  cases b <;> simp [check, eq_comm]

/-! ## Reads -/

theorem readV_eq_error {N : Nat} {s : State} {r : Reg} {k : Cause} (h : readV N s r = .error k) : k = .uninit := by
  simp only [readV] at h
  split at h <;> simp_all

theorem readWord_eq_error {s : State} {r : Reg} {j : Nat} {k : Cause} (h : readWord s r j = .error k) : k = .uninit := by
  simp only [readWord] at h
  split at h <;> simp_all

theorem readData_eq_error {s : State} {k : Cause} (h : readData s = .error k) : k = .uninit := by
  simp only [readData] at h
  split at h <;> simp_all

theorem readVal_of_holds {s : State} {r : Reg} {x : BitVec s.cfg.width} (sg : Sign) (h : Holds s r x) :
    readVal s sg r = .ok (val sg x) := by
  simp [readVal, readV_of_holds h]

theorem readDigit_of_holds {s : State} {r : Reg} {w : Word} (sg : Sign) (h : HoldsWord s r 0 w) :
    readDigit s sg r = .ok (val sg w) := by
  simp [readDigit, readWord_of_holds h]

theorem readDist_of_holds {s : State} {r : Reg} {w : Word} (h : HoldsWord s r 0 w) : readDist s r = .ok w.toInt := by
  simp [readDist, readWord_of_holds h]

theorem readDataVal_of_valid {s : State} {w : Word} (sg : Sign) (h : s.data = some w) :
    readDataVal s sg = .ok (val sg w) := by
  simp [readDataVal, readData, h]

/-! ## Writes -/

/-- A one-destination write: what the destination holds, and that nothing else of the state changes. -/
theorem writeV_spec {N : Nat} (s : State) (rd : Reg) (x : BitVec N) (hN : s.cfg.width = N) :
    Holds (s.writeV rd x) rd x ∧ s.writeV rd x = { s with regs := (s.writeV rd x).regs } ∧
      ∀ r, r ≠ rd → (s.writeV rd x).reg r = s.reg r :=
  ⟨writeV_holds s rd x hN, rfl, fun _ h => writeV_reg_ne s x h⟩

/-- The end of an overflow-reporting command (R130). -/
theorem writeResult_spec (s : State) (sg : Sign) (rd : Reg) (t : Int) :
    Holds (s.writeResult sg rd t) rd (bits s.cfg.width t) ∧
      s.writeResult sg rd t = { s with regs := (s.writeResult sg rd t).regs, ov := overflow s.cfg.width sg t } ∧
      ∀ r, r ≠ rd → (s.writeResult sg rd t).reg r = s.reg r :=
  ⟨writeV_holds s rd _ rfl, rfl, fun _ h => writeV_reg_ne s _ h⟩

/-- The end of a full-width product (R163, R166). -/
theorem writeProduct_spec (s : State) {rd re : Reg} (h : rd ≠ re) (P : Int) :
    Holds (s.writeProduct rd re P) rd (bits s.cfg.width P) ∧
      Holds (s.writeProduct rd re P) re (bits s.cfg.width (P / (2 ^ s.cfg.width : Nat))) ∧
      s.writeProduct rd re P = { s with regs := (s.writeProduct rd re P).regs } ∧
      ∀ r, r ≠ rd → r ≠ re → (s.writeProduct rd re P).reg r = s.reg r :=
  ⟨writeV_holds_ne _ h (writeV_holds s rd _ rfl), writeV_holds _ re _ rfl, rfl,
    fun _ h1 h2 => (writeV_reg_ne _ _ h2).trans (writeV_reg_ne s _ h1)⟩

/-- The end of a division (R190 to R192). -/
theorem writeQR_spec (s : State) {rd re : Reg} (h : rd ≠ re) (q r : Int) (ovf : Bool) :
    Holds (s.writeQR rd re q r ovf) rd (bits s.cfg.width q) ∧ Holds (s.writeQR rd re q r ovf) re (bits s.cfg.width r) ∧
      s.writeQR rd re q r ovf = { s with regs := (s.writeQR rd re q r ovf).regs, ov := ovf } ∧
      ∀ v, v ≠ rd → v ≠ re → (s.writeQR rd re q r ovf).reg v = s.reg v :=
  ⟨writeV_holds_ne _ h (writeV_holds s rd _ rfl), writeV_holds (s.writeV rd (bits s.cfg.width q)) re _ rfl, rfl,
    fun _ h1 h2 => (writeV_reg_ne _ _ h2).trans (writeV_reg_ne s _ h1)⟩

/-- The end of a construction that may be absent (R104, R107). -/
theorem writeOptional_spec (s : State) (sg : Sign) (rd : Reg) (v : Int) :
    (rep s.cfg.width sg v = true → Holds (s.writeOptional sg rd v) rd (bits s.cfg.width v) ∧
        s.writeOptional sg rd v = { s with regs := (s.writeOptional sg rd v).regs, nil := false } ∧
        ∀ r, r ≠ rd → (s.writeOptional sg rd v).reg r = s.reg r) ∧
      (rep s.cfg.width sg v = false → s.writeOptional sg rd v = { s with nil := true }) := by
  constructor
  · intro h
    simp only [State.writeOptional, h, if_true]
    exact ⟨writeV_holds s rd _ rfl, rfl, fun _ hr => writeV_reg_ne s _ hr⟩
  · intro h
    simp [State.writeOptional, h, State.setNIL]

/-! ## The bodies of shifts and bit accesses -/

/-- What the body of a shift or rotation answers when its source, its distance and its range check are good. -/
theorem shiftBody_ok {s : State} {rd ra : Reg} {dist : Except Cause Int} {guard : Int → Except Cause Unit}
    {f : BitVec s.cfg.width → Int → BitVec s.cfg.width} {x : BitVec s.cfg.width} {d : Int}
    (hx : Holds s ra x) (hd : dist = .ok d) (hg : guard d = .ok ()) :
    shiftBody s rd ra dist guard f = .ok (s.writeV rd (f x d)) := by
  simp [shiftBody, readV_of_holds hx, hd, hg]

/-- Everything the body of a shift or rotation can answer. -/
theorem shiftBody_eq_ok {s t : State} {rd ra : Reg} {dist : Except Cause Int} {guard : Int → Except Cause Unit}
    {f : BitVec s.cfg.width → Int → BitVec s.cfg.width} (h : shiftBody s rd ra dist guard f = .ok t) :
    ∃ x d, readV s.cfg.width s ra = .ok x ∧ dist = .ok d ∧ guard d = .ok () ∧ t = s.writeV rd (f x d) := by
  simp only [shiftBody, bind_eq_ok_iff] at h
  obtain ⟨x, hx, d, hd, u, hu, ht⟩ := h
  exact ⟨x, d, hx, hd, hu, (Except.ok.inj ht).symm⟩

/-- What the body of a bit access answers when its source and its index are good (R300). -/
theorem bitBody_ok {s : State} {rd ra : Reg} {index : Except Cause Int}
    {f : BitVec s.cfg.width → Nat × Nat → BitVec s.cfg.width} {x : BitVec s.cfg.width} {i : Int}
    (hx : Holds s ra x) (hi : index = .ok i) (hr : inRange i s.cfg.width = true) :
    bitBody s rd ra index f = .ok (s.writeV rd (f x (bitAddr i.toNat))) := by
  simp [bitBody, readV_of_holds hx, hi, hr]

/-- Everything the body of a bit access can answer. -/
theorem bitBody_eq_ok {s t : State} {rd ra : Reg} {index : Except Cause Int}
    {f : BitVec s.cfg.width → Nat × Nat → BitVec s.cfg.width} (h : bitBody s rd ra index f = .ok t) :
    ∃ x i, readV s.cfg.width s ra = .ok x ∧ index = .ok i ∧ inRange i s.cfg.width = true ∧
      t = s.writeV rd (f x (bitAddr i.toNat)) := by
  simp only [bitBody, bind_eq_ok_iff, check_eq_ok_iff] at h
  obtain ⟨x, hx, i, hi, u, hu, ht⟩ := h
  exact ⟨x, i, hx, hi, hu, (Except.ok.inj ht).symm⟩

/-! ## The register file keeps its form -/

theorem wf_resetOf (c : Config) : (State.resetOf c).Wf := fun r => by simp; rfl

theorem wf_writeV {N : Nat} {s : State} (hs : s.Wf) (r : Reg) (x : BitVec N) : (s.writeV r x).Wf := by
  intro q
  by_cases h : q = r
  · simp [h]
  · rw [writeV_reg_ne s x h]
    exact hs q

theorem wf_writeWord {s : State} (hs : s.Wf) (r : Reg) (k : Nat) (w : Word) : (s.writeWord r k w).Wf := by
  intro q
  by_cases h : q = r
  · simp [h, hs r]
  · rw [writeWord_reg_ne s k w h]
    exact hs q

theorem wf_afterReset (s : State) : s.afterReset.Wf := fun r => by simp; rfl

/-- What WRW leaves in the word it writes, in a well-formed register file (R324). -/
theorem writeWord_holdsWord {s : State} (hs : s.Wf) (r : Reg) {k : Nat} (w : Word) (hk : k < s.cfg.words) :
    HoldsWord (s.writeWord r k w) r k w := by
  simp [HoldsWord, hs r, hk]

/-! ## Readings of patterns -/

/-- A pattern is recovered from either of its readings (R12). -/
@[simp] theorem bits_val {N : Nat} (sg : Sign) (x : BitVec N) : bits N (val sg x) = x := by
  cases sg with
  | u => simp [bits, val]
  | s => simp [bits, val]

theorem bits_add {N : Nat} (sg : Sign) (x y : BitVec N) : bits N (val sg x + val sg y) = x + y := by
  rw [bits, BitVec.ofInt_add, ← bits, ← bits, bits_val, bits_val]

theorem bits_mul {N : Nat} (sg : Sign) (x y : BitVec N) : bits N (val sg x * val sg y) = x * y := by
  rw [bits, BitVec.ofInt_mul, ← bits, ← bits, bits_val, bits_val]

theorem rep_iff {M : Nat} {sg : Sign} {v : Int} : rep M sg v = true ↔ minS M sg ≤ v ∧ v ≤ maxS M sg := by
  simp [rep]

/-! ## Steps -/

/-- A step serves the first host event (R60). -/
theorem step_cons {s : State} {e : HostEvent} {rest : List HostEvent} (h : s.hostIn = e :: rest) :
    step s = hostEvent e { s with hostIn := rest } := by
  simp [step, serveNext, h]

/-- With no host event the block idles (R422). -/
theorem step_idle {s : State} (h : s.hostIn = []) : step s = .next s := by
  simp [step, serveNext, h]

/-- Everything a CMD write does while FAULT = 0 (R56). -/
theorem writeCmd_running {c : CmdWord} {s : State} (h : s.fault = false) :
    writeCmd c s = match decode c with
      | .ok i => exec i s
      | .error _ => .next (enterFault .illegalCmd c s) := by
  cases hd : decode c <;> simp [writeCmd, h, hd]

/-- A CMD write while FAULT = 1 is ignored (R404). -/
theorem writeCmd_faulted {c : CmdWord} {s : State} (h : s.fault = true) : writeCmd c s = .next s := by
  simp [writeCmd, h]

end Sys2Proof.Machine
end

