-- ==== Sys2Proof/Laws/PerInstr.lean ====
section
/-! SUPPORT. The family SelectsItsRow: the word of every command selects its row of opcode_table.json, as far as the mask
says (R86). -/

namespace Sys2Proof.Laws.SelectsItsRow

/-- Two words with the same fields of format R are the same word (R71). -/
theorem word_ext {c d : CmdWord} (hop : (fieldsOf c).op = (fieldsOf d).op) (hs : (fieldsOf c).s = (fieldsOf d).s)
    (hx : (fieldsOf c).x = (fieldsOf d).x) (hrd : (fieldsOf c).rd = (fieldsOf d).rd)
    (hre : (fieldsOf c).re = (fieldsOf d).re) (hra : (fieldsOf c).ra = (fieldsOf d).ra)
    (hrb : (fieldsOf c).rb = (fieldsOf d).rb) (hrc : (fieldsOf c).rc = (fieldsOf d).rc)
    (hz : (fieldsOf c).z = (fieldsOf d).z) : c = d := by
  apply BitVec.eq_of_toNat_eq
  rw [word_toNat c, word_toNat d, imm_toNat c, imm_toNat d, hop, hs, hx, hrd, hre, hra, hrb, hrc, hz]

/-- Two words with the same fields of format I are the same word (R72). -/
theorem word_ext_imm {c d : CmdWord} (hop : (fieldsOf c).op = (fieldsOf d).op) (hs : (fieldsOf c).s = (fieldsOf d).s)
    (hx : (fieldsOf c).x = (fieldsOf d).x) (hrd : (fieldsOf c).rd = (fieldsOf d).rd)
    (hre : (fieldsOf c).re = (fieldsOf d).re) (hra : (fieldsOf c).ra = (fieldsOf d).ra)
    (himm : (fieldsOf c).imm = (fieldsOf d).imm) : c = d := by
  apply BitVec.eq_of_toNat_eq
  rw [word_toNat c, word_toNat d, hop, hs, hx, hrd, hre, hra, himm]

theorem and_zero_of {n : Nat} {x m p : BitVec n} (hm : m = 0#n) (hp : p = 0#n) : x &&& m = p := by
  rw [hm, hp, BitVec.and_zero]

theorem and_false_of {x m p : Bool} (hm : m = false) (hp : p = false) : (x && m) = p := by
  rw [hm, hp, Bool.and_false]

/-- A word of format R selects a row when its fields do, field by field. -/
theorem selects_of_fields_wordR {op : BitVec 6} {s x : Bool} {rd re ra rb rc : Reg} {m p : CmdWord}
    (hop : op &&& (fieldsOf m).op = (fieldsOf p).op) (hs : (s && (fieldsOf m).s) = (fieldsOf p).s)
    (hx : (x && (fieldsOf m).x) = (fieldsOf p).x) (hrd : rd &&& (fieldsOf m).rd = (fieldsOf p).rd)
    (hre : re &&& (fieldsOf m).re = (fieldsOf p).re) (hra : ra &&& (fieldsOf m).ra = (fieldsOf p).ra)
    (hrb : rb &&& (fieldsOf m).rb = (fieldsOf p).rb) (hrc : rc &&& (fieldsOf m).rc = (fieldsOf p).rc)
    (hz : 0#9 &&& (fieldsOf m).z = (fieldsOf p).z) : wordR op s x rd re ra rb rc &&& m = p := by
  have h := fieldsOf_wordR op s x rd re ra rb rc
  simp only [fieldsOf, Fields.mk.injEq] at h
  obtain ⟨h1, h2, h3, h4, h5, h6, h7, h8, h9, -⟩ := h
  apply word_ext <;> simp only [fieldsOf, BitVec.extractLsb'_and, BitVec.getLsbD_and, h1, h2, h3, h4, h5, h6, h7, h8, h9] <;>
    assumption

/-- A word of format I selects a row when its fields do, field by field. -/
theorem selects_of_fields_wordI {op : BitVec 6} {s x : Bool} {rd ra : Reg} {imm : Imm15} {m p : CmdWord}
    (hop : op &&& (fieldsOf m).op = (fieldsOf p).op) (hs : (s && (fieldsOf m).s) = (fieldsOf p).s)
    (hx : (x && (fieldsOf m).x) = (fieldsOf p).x) (hrd : rd &&& (fieldsOf m).rd = (fieldsOf p).rd)
    (hre : 0#3 &&& (fieldsOf m).re = (fieldsOf p).re) (hra : ra &&& (fieldsOf m).ra = (fieldsOf p).ra)
    (himm : imm &&& (fieldsOf m).imm = (fieldsOf p).imm) : wordI op s x rd ra imm &&& m = p := by
  have h := fieldsOf_wordI op s x rd ra imm
  simp only [fieldsOf, Fields.mk.injEq] at h
  obtain ⟨h1, h2, h3, h4, h5, h6, -, -, -, h10⟩ := h
  apply word_ext_imm <;> simp only [fieldsOf, BitVec.extractLsb'_and, BitVec.getLsbD_and, h1, h2, h3, h4, h5, h6, h10] <;>
    assumption

/-- (w & mask) = match for the word of the command and its row (R86). -/
def Statement (i : Instr) : Prop := encode i &&& (tableRow i).mask = (tableRow i).pattern

theorem wrw (rd : Reg) (imm : Imm15) : Statement (.wrw rd imm) :=
  selects_of_fields_wordI (m := 0xFF1F8000#32) (p := 0x04000000#32) (by decide) (by decide) (by decide)
    (and_zero_of (by decide) (by decide)) (by decide) (by decide) (and_zero_of (by decide) (by decide))

theorem rdw (ra : Reg) (imm : Imm15) : Statement (.rdw ra imm) :=
  selects_of_fields_wordI (m := 0xFFFC0000#32) (p := 0x08000000#32) (by decide) (by decide) (by decide)
    (by decide) (by decide) (and_zero_of (by decide) (by decide)) (and_zero_of (by decide) (by decide))

theorem seqb (ts ss : Sign) (rd : Reg) : Statement (.seqb ts ss rd) :=
  selects_of_fields_wordR (m := 0xFC1FFFFF#32) (p := 0x0C000000#32) (by decide) (and_false_of (by decide)
    (by decide)) (and_false_of (by decide) (by decide)) (and_zero_of (by decide) (by decide)) (by decide)
    (by decide) (by decide) (by decide) (by decide)

theorem seqw : Statement (.seqw) :=
  selects_of_fields_wordR (m := 0xFFFFFFFF#32) (p := 0x10000000#32) (by decide) (by decide) (by decide)
    (by decide) (by decide) (by decide) (by decide) (by decide) (by decide)

theorem seqe : Statement (.seqe) :=
  selects_of_fields_wordR (m := 0xFFFFFFFF#32) (p := 0x14000000#32) (by decide) (by decide) (by decide)
    (by decide) (by decide) (by decide) (by decide) (by decide) (by decide)

theorem fromwt (ss : Sign) (rd : Reg) : Statement (.fromwt ss rd) :=
  selects_of_fields_wordR (m := 0xFE1FFFFF#32) (p := 0x18000000#32) (by decide) (by decide) (and_false_of
    (by decide) (by decide)) (and_zero_of (by decide) (by decide)) (by decide) (by decide) (by decide)
    (by decide) (by decide)

theorem fromwc (ts ss : Sign) (rd : Reg) : Statement (.fromwc ts ss rd) :=
  selects_of_fields_wordR (m := 0xFC1FFFFF#32) (p := 0x1C000000#32) (by decide) (and_false_of (by decide)
    (by decide)) (and_false_of (by decide) (by decide)) (and_zero_of (by decide) (by decide)) (by decide)
    (by decide) (by decide) (by decide) (by decide)

theorem fromwe (ts ss : Sign) (rd : Reg) : Statement (.fromwe ts ss rd) :=
  selects_of_fields_wordR (m := 0xFC1FFFFF#32) (p := 0x20000000#32) (by decide) (and_false_of (by decide)
    (by decide)) (and_false_of (by decide) (by decide)) (and_zero_of (by decide) (by decide)) (by decide)
    (by decide) (by decide) (by decide) (by decide)

theorem add (sg : Sign) (rd ra rb : Reg) : Statement (.add sg rd ra rb) :=
  selects_of_fields_wordR (m := 0xFD1C0FFF#32) (p := 0x40000000#32) (by decide) (and_false_of (by decide)
    (by decide)) (by decide) (and_zero_of (by decide) (by decide)) (by decide) (and_zero_of (by decide)
    (by decide)) (and_zero_of (by decide) (by decide)) (by decide) (by decide)

theorem sub (sg : Sign) (rd ra rb : Reg) : Statement (.sub sg rd ra rb) :=
  selects_of_fields_wordR (m := 0xFD1C0FFF#32) (p := 0x44000000#32) (by decide) (and_false_of (by decide)
    (by decide)) (by decide) (and_zero_of (by decide) (by decide)) (by decide) (and_zero_of (by decide)
    (by decide)) (and_zero_of (by decide) (by decide)) (by decide) (by decide)

theorem addd (sg : Sign) (rd ra rb : Reg) : Statement (.addd sg rd ra rb) :=
  selects_of_fields_wordR (m := 0xFD1C0FFF#32) (p := 0x48000000#32) (by decide) (and_false_of (by decide)
    (by decide)) (by decide) (and_zero_of (by decide) (by decide)) (by decide) (and_zero_of (by decide)
    (by decide)) (and_zero_of (by decide) (by decide)) (by decide) (by decide)

theorem subd (sg : Sign) (rd ra rb : Reg) : Statement (.subd sg rd ra rb) :=
  selects_of_fields_wordR (m := 0xFD1C0FFF#32) (p := 0x4C000000#32) (by decide) (and_false_of (by decide)
    (by decide)) (by decide) (and_zero_of (by decide) (by decide)) (by decide) (and_zero_of (by decide)
    (by decide)) (and_zero_of (by decide) (by decide)) (by decide) (by decide)

theorem mul (sg : Sign) (rd ra rb : Reg) : Statement (.mul sg rd ra rb) :=
  selects_of_fields_wordR (m := 0xFD1C0FFF#32) (p := 0x50000000#32) (by decide) (and_false_of (by decide)
    (by decide)) (by decide) (and_zero_of (by decide) (by decide)) (by decide) (and_zero_of (by decide)
    (by decide)) (and_zero_of (by decide) (by decide)) (by decide) (by decide)

theorem muld (sg : Sign) (rd ra rb : Reg) : Statement (.muld sg rd ra rb) :=
  selects_of_fields_wordR (m := 0xFD1C0FFF#32) (p := 0x58000000#32) (by decide) (and_false_of (by decide)
    (by decide)) (by decide) (and_zero_of (by decide) (by decide)) (by decide) (and_zero_of (by decide)
    (by decide)) (and_zero_of (by decide) (by decide)) (by decide) (by decide)

theorem mulfw (sg : Sign) (rd re ra rb : Reg) : Statement (.mulfw sg rd re ra rb) :=
  selects_of_fields_wordR (m := 0xFD000FFF#32) (p := 0x54000000#32) (by decide) (and_false_of (by decide)
    (by decide)) (by decide) (and_zero_of (by decide) (by decide)) (and_zero_of (by decide) (by decide))
    (and_zero_of (by decide) (by decide)) (and_zero_of (by decide) (by decide)) (by decide) (by decide)

theorem mulfwd (sg : Sign) (rd re ra rb : Reg) : Statement (.mulfwd sg rd re ra rb) :=
  selects_of_fields_wordR (m := 0xFD000FFF#32) (p := 0x5C000000#32) (by decide) (and_false_of (by decide)
    (by decide)) (by decide) (and_zero_of (by decide) (by decide)) (and_zero_of (by decide) (by decide))
    (and_zero_of (by decide) (by decide)) (and_zero_of (by decide) (by decide)) (by decide) (by decide)

theorem div (sg : Sign) (rd re ra rb : Reg) : Statement (.div sg rd re ra rb) :=
  selects_of_fields_wordR (m := 0xFD000FFF#32) (p := 0x60000000#32) (by decide) (and_false_of (by decide)
    (by decide)) (by decide) (and_zero_of (by decide) (by decide)) (and_zero_of (by decide) (by decide))
    (and_zero_of (by decide) (by decide)) (and_zero_of (by decide) (by decide)) (by decide) (by decide)

theorem divfw (sg : Sign) (rd re ra rb rc : Reg) : Statement (.divfw sg rd re ra rb rc) :=
  selects_of_fields_wordR (m := 0xFD0001FF#32) (p := 0x64000000#32) (by decide) (and_false_of (by decide)
    (by decide)) (by decide) (and_zero_of (by decide) (by decide)) (and_zero_of (by decide) (by decide))
    (and_zero_of (by decide) (by decide)) (and_zero_of (by decide) (by decide)) (and_zero_of (by decide)
    (by decide)) (by decide)

theorem divd (sg : Sign) (rd re ra rb : Reg) : Statement (.divd sg rd re ra rb) :=
  selects_of_fields_wordR (m := 0xFD000FFF#32) (p := 0x68000000#32) (by decide) (and_false_of (by decide)
    (by decide)) (by decide) (and_zero_of (by decide) (by decide)) (and_zero_of (by decide) (by decide))
    (and_zero_of (by decide) (by decide)) (and_zero_of (by decide) (by decide)) (by decide) (by decide)

theorem not (rd ra : Reg) : Statement (.not rd ra) :=
  selects_of_fields_wordR (m := 0xFF1C7FFF#32) (p := 0x70000000#32) (by decide) (by decide) (by decide)
    (and_zero_of (by decide) (by decide)) (by decide) (and_zero_of (by decide) (by decide)) (by decide)
    (by decide) (by decide)

theorem neg (sg : Sign) (rd ra : Reg) : Statement (.neg sg rd ra) :=
  selects_of_fields_wordR (m := 0xFD1C7FFF#32) (p := 0x71000000#32) (by decide) (and_false_of (by decide)
    (by decide)) (by decide) (and_zero_of (by decide) (by decide)) (by decide) (and_zero_of (by decide)
    (by decide)) (by decide) (by decide) (by decide)

theorem mag (sg : Sign) (rd ra : Reg) : Statement (.mag sg rd ra) :=
  selects_of_fields_wordR (m := 0xFD1C7FFF#32) (p := 0x74000000#32) (by decide) (and_false_of (by decide)
    (by decide)) (by decide) (and_zero_of (by decide) (by decide)) (by decide) (and_zero_of (by decide)
    (by decide)) (by decide) (by decide) (by decide)

theorem shl (sg : Sign) (rd ra rb : Reg) : Statement (.shl sg rd ra rb) :=
  selects_of_fields_wordR (m := 0xFD1C0FFF#32) (p := 0x80000000#32) (by decide) (and_false_of (by decide)
    (by decide)) (by decide) (and_zero_of (by decide) (by decide)) (by decide) (and_zero_of (by decide)
    (by decide)) (and_zero_of (by decide) (by decide)) (by decide) (by decide)

theorem shli (rd ra : Reg) (imm : Imm15) : Statement (.shli rd ra imm) :=
  selects_of_fields_wordI (m := 0xFF1C0000#32) (p := 0x81000000#32) (by decide) (by decide) (by decide)
    (and_zero_of (by decide) (by decide)) (by decide) (and_zero_of (by decide) (by decide)) (and_zero_of
    (by decide) (by decide))

theorem shr (sg : Sign) (rd ra rb : Reg) : Statement (.shr sg rd ra rb) :=
  selects_of_fields_wordR (m := 0xFD1C0FFF#32) (p := 0x84000000#32) (by decide) (and_false_of (by decide)
    (by decide)) (by decide) (and_zero_of (by decide) (by decide)) (by decide) (and_zero_of (by decide)
    (by decide)) (and_zero_of (by decide) (by decide)) (by decide) (by decide)

theorem shri (sg : Sign) (rd ra : Reg) (imm : Imm15) : Statement (.shri sg rd ra imm) :=
  selects_of_fields_wordI (m := 0xFD1C0000#32) (p := 0x85000000#32) (by decide) (and_false_of (by decide)
    (by decide)) (by decide) (and_zero_of (by decide) (by decide)) (by decide) (and_zero_of (by decide)
    (by decide)) (and_zero_of (by decide) (by decide))

theorem shlm (rd ra rb : Reg) : Statement (.shlm rd ra rb) :=
  selects_of_fields_wordR (m := 0xFF1C0FFF#32) (p := 0x88000000#32) (by decide) (by decide) (by decide)
    (and_zero_of (by decide) (by decide)) (by decide) (and_zero_of (by decide) (by decide)) (and_zero_of
    (by decide) (by decide)) (by decide) (by decide)

theorem shlmi (rd ra : Reg) (imm : Imm15) : Statement (.shlmi rd ra imm) :=
  selects_of_fields_wordI (m := 0xFF1C0000#32) (p := 0x89000000#32) (by decide) (by decide) (by decide)
    (and_zero_of (by decide) (by decide)) (by decide) (and_zero_of (by decide) (by decide)) (and_zero_of
    (by decide) (by decide))

theorem shrm (sg : Sign) (rd ra rb : Reg) : Statement (.shrm sg rd ra rb) :=
  selects_of_fields_wordR (m := 0xFD1C0FFF#32) (p := 0x8C000000#32) (by decide) (and_false_of (by decide)
    (by decide)) (by decide) (and_zero_of (by decide) (by decide)) (by decide) (and_zero_of (by decide)
    (by decide)) (and_zero_of (by decide) (by decide)) (by decide) (by decide)

theorem shrmi (sg : Sign) (rd ra : Reg) (imm : Imm15) : Statement (.shrmi sg rd ra imm) :=
  selects_of_fields_wordI (m := 0xFD1C0000#32) (p := 0x8D000000#32) (by decide) (and_false_of (by decide)
    (by decide)) (by decide) (and_zero_of (by decide) (by decide)) (by decide) (and_zero_of (by decide)
    (by decide)) (and_zero_of (by decide) (by decide))

theorem shlw (rd ra rb : Reg) : Statement (.shlw rd ra rb) :=
  selects_of_fields_wordR (m := 0xFF1C0FFF#32) (p := 0x90000000#32) (by decide) (by decide) (by decide)
    (and_zero_of (by decide) (by decide)) (by decide) (and_zero_of (by decide) (by decide)) (and_zero_of
    (by decide) (by decide)) (by decide) (by decide)

theorem shlwi (rd ra : Reg) (imm : Imm15) : Statement (.shlwi rd ra imm) :=
  selects_of_fields_wordI (m := 0xFF1C0000#32) (p := 0x91000000#32) (by decide) (by decide) (by decide)
    (and_zero_of (by decide) (by decide)) (by decide) (and_zero_of (by decide) (by decide)) (and_zero_of
    (by decide) (by decide))

theorem shrw (sg : Sign) (rd ra rb : Reg) : Statement (.shrw sg rd ra rb) :=
  selects_of_fields_wordR (m := 0xFD1C0FFF#32) (p := 0x94000000#32) (by decide) (and_false_of (by decide)
    (by decide)) (by decide) (and_zero_of (by decide) (by decide)) (by decide) (and_zero_of (by decide)
    (by decide)) (and_zero_of (by decide) (by decide)) (by decide) (by decide)

theorem shrwi (sg : Sign) (rd ra : Reg) (imm : Imm15) : Statement (.shrwi sg rd ra imm) :=
  selects_of_fields_wordI (m := 0xFD1C0000#32) (p := 0x95000000#32) (by decide) (and_false_of (by decide)
    (by decide)) (by decide) (and_zero_of (by decide) (by decide)) (by decide) (and_zero_of (by decide)
    (by decide)) (and_zero_of (by decide) (by decide))

theorem rol (rd ra rb : Reg) : Statement (.rol rd ra rb) :=
  selects_of_fields_wordR (m := 0xFF1C0FFF#32) (p := 0x98000000#32) (by decide) (by decide) (by decide)
    (and_zero_of (by decide) (by decide)) (by decide) (and_zero_of (by decide) (by decide)) (and_zero_of
    (by decide) (by decide)) (by decide) (by decide)

theorem roli (rd ra : Reg) (imm : Imm15) : Statement (.roli rd ra imm) :=
  selects_of_fields_wordI (m := 0xFF1C0000#32) (p := 0x99000000#32) (by decide) (by decide) (by decide)
    (and_zero_of (by decide) (by decide)) (by decide) (and_zero_of (by decide) (by decide)) (and_zero_of
    (by decide) (by decide))

theorem ror (rd ra rb : Reg) : Statement (.ror rd ra rb) :=
  selects_of_fields_wordR (m := 0xFF1C0FFF#32) (p := 0x9C000000#32) (by decide) (by decide) (by decide)
    (and_zero_of (by decide) (by decide)) (by decide) (and_zero_of (by decide) (by decide)) (and_zero_of
    (by decide) (by decide)) (by decide) (by decide)

theorem rori (rd ra : Reg) (imm : Imm15) : Statement (.rori rd ra imm) :=
  selects_of_fields_wordI (m := 0xFF1C0000#32) (p := 0x9D000000#32) (by decide) (by decide) (by decide)
    (and_zero_of (by decide) (by decide)) (by decide) (and_zero_of (by decide) (by decide)) (and_zero_of
    (by decide) (by decide))

theorem bget (rd ra rb : Reg) : Statement (.bget rd ra rb) :=
  selects_of_fields_wordR (m := 0xFF1C0FFF#32) (p := 0xA0000000#32) (by decide) (by decide) (by decide)
    (and_zero_of (by decide) (by decide)) (by decide) (and_zero_of (by decide) (by decide)) (and_zero_of
    (by decide) (by decide)) (by decide) (by decide)

theorem bgeti (rd ra : Reg) (imm : Imm15) : Statement (.bgeti rd ra imm) :=
  selects_of_fields_wordI (m := 0xFF1C0000#32) (p := 0xA1000000#32) (by decide) (by decide) (by decide)
    (and_zero_of (by decide) (by decide)) (by decide) (and_zero_of (by decide) (by decide)) (and_zero_of
    (by decide) (by decide))

theorem bset (rd ra rb : Reg) : Statement (.bset rd ra rb) :=
  selects_of_fields_wordR (m := 0xFF1C0FFF#32) (p := 0xA4000000#32) (by decide) (by decide) (by decide)
    (and_zero_of (by decide) (by decide)) (by decide) (and_zero_of (by decide) (by decide)) (and_zero_of
    (by decide) (by decide)) (by decide) (by decide)

theorem bseti (rd ra : Reg) (imm : Imm15) : Statement (.bseti rd ra imm) :=
  selects_of_fields_wordI (m := 0xFF1C0000#32) (p := 0xA5000000#32) (by decide) (by decide) (by decide)
    (and_zero_of (by decide) (by decide)) (by decide) (and_zero_of (by decide) (by decide)) (and_zero_of
    (by decide) (by decide))

theorem bclr (rd ra rb : Reg) : Statement (.bclr rd ra rb) :=
  selects_of_fields_wordR (m := 0xFF1C0FFF#32) (p := 0xA8000000#32) (by decide) (by decide) (by decide)
    (and_zero_of (by decide) (by decide)) (by decide) (and_zero_of (by decide) (by decide)) (and_zero_of
    (by decide) (by decide)) (by decide) (by decide)

theorem bclri (rd ra : Reg) (imm : Imm15) : Statement (.bclri rd ra imm) :=
  selects_of_fields_wordI (m := 0xFF1C0000#32) (p := 0xA9000000#32) (by decide) (by decide) (by decide)
    (and_zero_of (by decide) (by decide)) (by decide) (and_zero_of (by decide) (by decide)) (and_zero_of
    (by decide) (by decide))

theorem btgl (rd ra rb : Reg) : Statement (.btgl rd ra rb) :=
  selects_of_fields_wordR (m := 0xFF1C0FFF#32) (p := 0xAC000000#32) (by decide) (by decide) (by decide)
    (and_zero_of (by decide) (by decide)) (by decide) (and_zero_of (by decide) (by decide)) (and_zero_of
    (by decide) (by decide)) (by decide) (by decide)

theorem btgli (rd ra : Reg) (imm : Imm15) : Statement (.btgli rd ra imm) :=
  selects_of_fields_wordI (m := 0xFF1C0000#32) (p := 0xAD000000#32) (by decide) (by decide) (by decide)
    (and_zero_of (by decide) (by decide)) (by decide) (and_zero_of (by decide) (by decide)) (and_zero_of
    (by decide) (by decide))

end Sys2Proof.Laws.SelectsItsRow
end

