-- ==== Sys2Proof/Tests/Slice0.lean ====
section
/-! SUPPORT. The model's own tests: the well-formedness smoke, every command's word written out from R71, R72 and R79, at
most two steps of each command with the results that spec/95_test_vectors.md or the command's own rule gives, and a
witness for the hypotheses of every obligation. -/

namespace Sys2Proof.Tests

set_option Elab.async false

open Sys2Proof Sys2Proof.Machine

/-! ## Well-formedness: one ill-formed command for each two-destination form (R80 (e)) -/

theorem test_ill_formed_refused :
    (Instr.mulfw .u 3 3 1 2).wellFormed = false ∧ (Instr.mulfwd .s 0 0 1 2).wellFormed = false ∧
    (Instr.div .s 7 7 1 2).wellFormed = false ∧ (Instr.divfw .u 4 4 1 2 3).wellFormed = false ∧
    (Instr.divd .u 5 5 5 5).wellFormed = false ∧ (Instr.div .u 3 4 3 4).wellFormed = true := by decide

/-! ## Decoding -/

theorem test_decode_word_access :
    decode 0b000001_0_0_001_000_000_000000000000011#32 = .ok (.wrw 1 3) ∧
    decode 0b000010_0_0_000_000_110_000000000000000#32 = .ok (.rdw 6 0) ∧
    decode 0b000001_0_0_101_000_000_111111111111111#32 = .ok (.wrw 5 32767) := by
  refine ⟨rfl, rfl, rfl⟩

theorem test_decode_construct :
    decode 0b000011_1_0_010_000_000_000_000_000000000#32 = .ok (.seqb .s .u 2) ∧
    decode 0b000100_0_0_000_000_000_000_000_000000000#32 = .ok .seqw ∧
    decode 0b000101_0_0_000_000_000_000_000_000000000#32 = .ok .seqe ∧
    decode 0b000110_0_1_011_000_000_000_000_000000000#32 = .ok (.fromwt .s 3) ∧
    decode 0b000111_1_0_100_000_000_000_000_000000000#32 = .ok (.fromwc .s .u 4) ∧
    decode 0b001000_0_1_101_000_000_000_000_000000000#32 = .ok (.fromwe .u .s 5) := by
  refine ⟨rfl, rfl, rfl, rfl, rfl, rfl⟩

theorem test_decode_add_sub :
    decode 0b010000_0_0_011_000_001_110_000_000000000#32 = .ok (.add .u 3 1 6) ∧
    decode 0b010001_1_0_011_000_001_110_000_000000000#32 = .ok (.sub .s 3 1 6) ∧
    decode 0b010010_0_0_011_000_001_110_000_000000000#32 = .ok (.addd .u 3 1 6) ∧
    decode 0b010011_1_0_011_000_001_110_000_000000000#32 = .ok (.subd .s 3 1 6) := by
  refine ⟨rfl, rfl, rfl, rfl⟩

theorem test_decode_multiply :
    decode 0b010100_1_0_111_000_010_101_000_000000000#32 = .ok (.mul .s 7 2 5) ∧
    decode 0b010101_0_0_111_110_010_101_000_000000000#32 = .ok (.mulfw .u 7 6 2 5) ∧
    decode 0b010110_0_0_111_000_010_101_000_000000000#32 = .ok (.muld .u 7 2 5) ∧
    decode 0b010111_1_0_111_110_010_101_000_000000000#32 = .ok (.mulfwd .s 7 6 2 5) := by
  refine ⟨rfl, rfl, rfl, rfl⟩

theorem test_decode_divide :
    decode 0b011000_1_0_011_100_001_010_000_000000000#32 = .ok (.div .s 3 4 1 2) ∧
    decode 0b011001_0_0_100_101_001_010_011_000000000#32 = .ok (.divfw .u 4 5 1 2 3) ∧
    decode 0b011010_0_0_011_100_001_010_000_000000000#32 = .ok (.divd .u 3 4 1 2) := by
  refine ⟨rfl, rfl, rfl⟩

theorem test_decode_sign :
    decode 0b011100_0_0_010_000_001_000_000_000000000#32 = .ok (.not 2 1) ∧
    decode 0b011100_1_1_000_000_111_000_000_000000000#32 = .ok (.neg .s 0 7) ∧
    decode 0b011101_1_0_010_000_101_000_000_000000000#32 = .ok (.mag .s 2 5) := by
  refine ⟨rfl, rfl, rfl⟩

theorem test_decode_shift :
    decode 0b100000_0_0_100_000_001_010_000_000000000#32 = .ok (.shl .u 4 1 2) ∧
    decode 0b100000_0_1_100_000_001_100000100000001#32 = .ok (.shli 4 1 16641) ∧
    decode 0b100001_1_0_100_000_001_010_000_000000000#32 = .ok (.shr .s 4 1 2) ∧
    decode 0b100001_1_1_100_000_001_100000100000010#32 = .ok (.shri .s 4 1 16642) ∧
    decode 0b100010_0_0_100_000_001_010_000_000000000#32 = .ok (.shlm 4 1 2) ∧
    decode 0b100010_0_1_100_000_001_100000100000011#32 = .ok (.shlmi 4 1 16643) ∧
    decode 0b100011_1_0_100_000_001_010_000_000000000#32 = .ok (.shrm .s 4 1 2) ∧
    decode 0b100011_1_1_100_000_001_100000100000100#32 = .ok (.shrmi .s 4 1 16644) ∧
    decode 0b100100_0_0_100_000_001_010_000_000000000#32 = .ok (.shlw 4 1 2) ∧
    decode 0b100100_0_1_100_000_001_100000100000101#32 = .ok (.shlwi 4 1 16645) ∧
    decode 0b100101_1_0_100_000_001_010_000_000000000#32 = .ok (.shrw .s 4 1 2) ∧
    decode 0b100101_1_1_100_000_001_100000100000110#32 = .ok (.shrwi .s 4 1 16646) ∧
    decode 0b100000_1_0_100_000_001_010_000_000000000#32 = .ok (.shl .s 4 1 2) := by
  refine ⟨rfl, rfl, rfl, rfl, rfl, rfl, rfl, rfl, rfl, rfl, rfl, rfl, rfl⟩

theorem test_decode_rotate :
    decode 0b100110_0_0_100_000_001_010_000_000000000#32 = .ok (.rol 4 1 2) ∧
    decode 0b100110_0_1_100_000_001_100000100000001#32 = .ok (.roli 4 1 16641) ∧
    decode 0b100111_0_0_100_000_001_010_000_000000000#32 = .ok (.ror 4 1 2) ∧
    decode 0b100111_0_1_100_000_001_100000100000010#32 = .ok (.rori 4 1 16642) := by
  refine ⟨rfl, rfl, rfl, rfl⟩

theorem test_decode_bit :
    decode 0b101000_0_0_100_000_001_010_000_000000000#32 = .ok (.bget 4 1 2) ∧
    decode 0b101000_0_1_100_000_001_100000100000001#32 = .ok (.bgeti 4 1 16641) ∧
    decode 0b101001_0_0_100_000_001_010_000_000000000#32 = .ok (.bset 4 1 2) ∧
    decode 0b101001_0_1_100_000_001_100000100000010#32 = .ok (.bseti 4 1 16642) ∧
    decode 0b101010_0_0_100_000_001_010_000_000000000#32 = .ok (.bclr 4 1 2) ∧
    decode 0b101010_0_1_100_000_001_100000100000011#32 = .ok (.bclri 4 1 16643) ∧
    decode 0b101011_0_0_100_000_001_010_000_000000000#32 = .ok (.btgl 4 1 2) ∧
    decode 0b101011_0_1_100_000_001_100000100000100#32 = .ok (.btgli 4 1 16644) := by
  refine ⟨rfl, rfl, rfl, rfl, rfl, rfl, rfl, rfl⟩

theorem test_decode_illegal :
    decode 0b000000_0_0_000_000_000_000_000_000000000#32 = .error .reservedOp ∧
    decode 0b011011_0_0_000_000_000_000_000_000000000#32 = .error .reservedOp ∧
    decode 0b010000_0_1_011_000_001_010_000_000000000#32 = .error .illegalVariant ∧
    decode 0b011100_1_0_010_000_001_000_000_000000000#32 = .error .illegalSign ∧
    decode 0b010000_0_0_011_001_001_010_000_000000000#32 = .error .nonzeroField ∧
    decode 0b010000_0_0_011_000_001_010_000_000000001#32 = .error .nonzeroField ∧
    decode 0b100000_0_1_011_100_001_000000000000101#32 = .error .nonzeroField ∧
    decode 0b011000_0_0_011_011_001_010_000_000000000#32 = .error .sameDestination := by
  refine ⟨rfl, rfl, rfl, rfl, rfl, rfl, rfl, rfl⟩

theorem test_table_word_is_a_number : decodeTableWord 32 0x8741_0041 = some (.shri .s 2 2 65) := rfl

theorem test_step_runs_the_table_word :
    (match step (State.reset.withFetchWord 32 0x0F40_0000) with
      | .next t => t.seqOpen && t.seqRd == 2 && t.hostIn == []
      | _ => false) = true := by decide +kernel

/-! ## One step of each command -/

/-- An instance of 2^(levels+1) words after reset, with the given registers written whole, and word 0 of others. -/
def start (levels : Nat) (full word0 : List (Reg × Nat)) : State :=
  let s := full.foldl (fun s p => s.writeV p.1 (BitVec.ofNat s.cfg.width p.2))
    (State.resetOf { levels := levels, endian := .little, window := 0 })
  word0.foldl (fun s p => s.writeWord p.1 0 (BitVec.ofNat 64 p.2)) s

/-- The unsigned value of a register, where all its words are valid. -/
def value (s : State) (r : Reg) : Option Nat := (allValid (s.reg r)).map wordsVal

/-- CAUSE, V4, V5 and OV after one command. -/
def outcome (levels : Nat) (full word0 : List (Reg × Nat)) (c : CmdWord) :
    Nat × Option Nat × Option Nat × Bool :=
  match writeCmd c (start levels full word0) with
  | .next t => (t.cause.toNat, value t 4, value t 5, t.ov)
  | _ => (99, none, none, false)

theorem test_add_A1 : outcome 0 [(1, 0xFFFFFFFFFFFFFFFFFFFFFFFFFFFFFFFF), (2, 1)] [] 0x4080A000#32 =
    (0, some 0, none, true) := by decide +kernel
theorem test_add_A3 : outcome 0 [(1, 0xFFFFFFFFFFFFFFFFFFFFFFFFFFFFFFFF), (2, 1)] [] 0x4280A000#32 =
    (0, some 0, none, false) := by decide +kernel
theorem test_sub_A6 : outcome 0 [(1, 0), (2, 1)] [] 0x4480A000#32 =
    (0, some 0xFFFFFFFFFFFFFFFFFFFFFFFFFFFFFFFF, none, true) := by decide +kernel
theorem test_sub_A7 : outcome 0 [(1, 0x80000000000000000000000000000000), (2, 1)] [] 0x4680A000#32 =
    (0, some 0x7FFFFFFFFFFFFFFFFFFFFFFFFFFFFFFF, none, true) := by decide +kernel
theorem test_addd_A10 : outcome 0 [(1, 0xFFFFFFFFFFFFFFFFFFFFFFFFFFFFFFFF)] [(2, 1)] 0x4880A000#32 =
    (0, some 0, none, true) := by decide +kernel
theorem test_addd_A11 : outcome 0 [(1, 5)] [(2, 0xFFFFFFFFFFFFFFFF)] 0x4A80A000#32 =
    (0, some 4, none, false) := by decide +kernel
theorem test_subd_A14 : outcome 0 [(1, 0)] [(2, 1)] 0x4C80A000#32 =
    (0, some 0xFFFFFFFFFFFFFFFFFFFFFFFFFFFFFFFF, none, true) := by decide +kernel
theorem test_subd_A16 : outcome 0 [(1, 0)] [(2, 0x8000000000000000)] 0x4E80A000#32 =
    (0, some 0x8000000000000000, none, false) := by decide +kernel
theorem test_mul_M1 : outcome 0 [(1, 0x10000000000000000), (2, 0x10000000000000000)] [] 0x5080A000#32 =
    (0, some 0, none, true) := by decide +kernel
theorem test_mul_M3 : outcome 0 [(1, 0xFFFFFFFFFFFFFFFFFFFFFFFFFFFFFFFF), (2, 0xFFFFFFFFFFFFFFFFFFFFFFFFFFFFFFFF)] [] 0x5280A000#32 =
    (0, some 1, none, false) := by decide +kernel
theorem test_mulfw_M8 : outcome 0 [(1, 0x10000000000000001), (2, 2)] [] 0x5494A000#32 =
    (0, some 0x20000000000000002, some 0, false) := by decide +kernel
theorem test_mulfw_M10 : outcome 0 [(1, 0x80000000000000000000000000000000), (2, 0x80000000000000000000000000000000)] [] 0x5694A000#32 =
    (0, some 0, some 0x40000000000000000000000000000000, false) := by decide +kernel
theorem test_muld_M13 : outcome 0 [(1, 0xFFFFFFFFFFFFFFFFFFFFFFFFFFFFFFFF)] [(2, 2)] 0x5880A000#32 =
    (0, some 0xFFFFFFFFFFFFFFFFFFFFFFFFFFFFFFFE, none, true) := by decide +kernel
theorem test_muld_M14 : outcome 0 [(1, 0xFFFFFFFFFFFFFFFFFFFFFFFFFFFFFFFF)] [(2, 0xFFFFFFFFFFFFFFFF)] 0x5A80A000#32 =
    (0, some 1, none, false) := by decide +kernel
theorem test_mulfwd_M17 : outcome 0 [(1, 0xFFFFFFFFFFFFFFFFFFFFFFFFFFFFFFFF)] [(2, 0xFFFFFFFFFFFFFFFF)] 0x5C94A000#32 =
    (0, some 0xFFFFFFFFFFFFFFFF0000000000000001, some 0xFFFFFFFFFFFFFFFE, false) := by decide +kernel
theorem test_mulfwd_M18 : outcome 0 [(1, 0xFFFFFFFFFFFFFFFFFFFFFFFFFFFFFFFF)] [(2, 0xFFFFFFFFFFFFFFFF)] 0x5E94A000#32 =
    (0, some 1, some 0, false) := by decide +kernel
theorem test_div_D1 : outcome 0 [(1, 7), (2, 2)] [] 0x6094A000#32 =
    (0, some 3, some 1, false) := by decide +kernel
theorem test_div_D6 : outcome 0 [(1, 0xFFFFFFFFFFFFFFFFFFFFFFFFFFFFCFC7), (2, 0)] [] 0x6294A000#32 =
    (0, some 0xFFFFFFFFFFFFFFFFFFFFFFFFFFFFCFC7, some 0xFFFFFFFFFFFFFFFFFFFFFFFFFFFFCFC7, true) := by decide +kernel
theorem test_divd_D15 : outcome 0 [(1, 0x56BC75E2D63100000)] [(2, 0x8AC7230489E80000)] 0x6894A000#32 =
    (0, some 0xA, some 0, false) := by decide +kernel
theorem test_divd_D20 : outcome 0 [(1, 0xFFFFFFFFFFFFFFFFFFFFFFFFFFFFFFFE)] [(2, 0)] 0x6A94A000#32 =
    (0, some 0xFFFFFFFFFFFFFFFFFFFFFFFFFFFFFFFE, some 0xFFFFFFFFFFFFFFFFFFFFFFFFFFFFFFFE, true) := by decide +kernel
theorem test_divfw_D23 : outcome 0 [(1, 1), (2, 0), (3, 3)] [] 0x6494A600#32 =
    (0, some 0x55555555555555555555555555555555, some 1, false) := by decide +kernel
theorem test_divfw_D28 : outcome 0 [(1, 0xFFFFFFFFFFFFFFFFFFFFFFFFFFFFFFFF), (2, 0), (3, 0xFFFFFFFFFFFFFFFFFFFFFFFFFFFFFFFE)] [] 0x6694A600#32 =
    (0, some 0x80000000000000000000000000000000, some 0, true) := by decide +kernel
theorem test_not_S1 : outcome 0 [(1, 0)] [] 0x70808000#32 =
    (0, some 0xFFFFFFFFFFFFFFFFFFFFFFFFFFFFFFFF, none, false) := by decide +kernel
theorem test_not_S2 : outcome 0 [(1, 0x123456789ABCDEF00000000FFFFFFFF)] [] 0x70808000#32 =
    (0, some 0xFEDCBA9876543210FFFFFFFF00000000, none, false) := by decide +kernel
theorem test_neg_S3 : outcome 0 [(1, 1)] [] 0x73808000#32 =
    (0, some 0xFFFFFFFFFFFFFFFFFFFFFFFFFFFFFFFF, none, false) := by decide +kernel
theorem test_neg_S6 : outcome 0 [(1, 0)] [] 0x71808000#32 =
    (0, some 0, none, true) := by decide +kernel
theorem test_mag_S9 : outcome 0 [(1, 0x80000000000000000000000000000000)] [] 0x76808000#32 =
    (0, some 0x80000000000000000000000000000000, none, false) := by decide +kernel
theorem test_mag_S11 : outcome 0 [(1, 0xFFFFFFFFFFFFFFFFFFFFFFFFFFFFFFFF)] [] 0x74808000#32 =
    (0, some 0xFFFFFFFFFFFFFFFFFFFFFFFFFFFFFFFF, none, false) := by decide +kernel
theorem test_shl_H1 : outcome 0 [(1, 1)] [(2, 0x7F)] 0x8080A000#32 =
    (0, some 0x80000000000000000000000000000000, none, false) := by decide +kernel
theorem test_shl_H4 : outcome 0 [(1, 0x80000000000000000000000000000001)] [(2, 0xFFFFFFFFFFFFFFFF)] 0x8280A000#32 =
    (0, some 0xC0000000000000000000000000000000, none, false) := by decide +kernel
theorem test_shli_H6 : outcome 0 [(1, 0x80000000000000000000000000000001)] [] 0x81808040#32 =
    (0, some 0x10000000000000000, none, false) := by decide +kernel
theorem test_shli_H7 : outcome 0 [(1, 0x80000000000000000000000000000001)] [] 0x81808000#32 =
    (0, some 0x80000000000000000000000000000001, none, false) := by decide +kernel
theorem test_shr_H9 : outcome 0 [(1, 0x80000000000000000000000000000001)] [(2, 0xC8)] 0x8680A000#32 =
    (0, some 0xFFFFFFFFFFFFFFFFFFFFFFFFFFFFFFFF, none, false) := by decide +kernel
theorem test_shr_H10 : outcome 0 [(1, 0x80000000000000000000000000000001)] [(2, 0xC8)] 0x8480A000#32 =
    (0, some 0, none, false) := by decide +kernel
theorem test_shri_H13 : outcome 0 [(1, 0x80000000000000000000000000000000)] [] 0x87808041#32 =
    (0, some 0xFFFFFFFFFFFFFFFFC000000000000000, none, false) := by decide +kernel
theorem test_shri_H14 : outcome 0 [(1, 0x80000000000000000000000000000000)] [] 0x85808041#32 =
    (0, some 0x4000000000000000, none, false) := by decide +kernel
theorem test_shlm_H16 : outcome 0 [(1, 1)] [(2, 0x81)] 0x8880A000#32 =
    (0, some 2, none, false) := by decide +kernel
theorem test_shlm_H17 : outcome 0 [(1, 1)] [(2, 0xFFFFFFFFFFFFFFFF)] 0x8880A000#32 =
    (0, some 0x80000000000000000000000000000000, none, false) := by decide +kernel
theorem test_shlmi_H18 : outcome 0 [(1, 1)] [] 0x89808080#32 =
    (0, some 1, none, false) := by decide +kernel
theorem test_shrm_H19 : outcome 0 [(1, 0x80000000000000000000000000000000)] [(2, 0x80)] 0x8E80A000#32 =
    (0, some 0x80000000000000000000000000000000, none, false) := by decide +kernel
theorem test_shrm_H20 : outcome 0 [(1, 0x80000000000000000000000000000000)] [(2, 0xFF)] 0x8E80A000#32 =
    (0, some 0xFFFFFFFFFFFFFFFFFFFFFFFFFFFFFFFF, none, false) := by decide +kernel
theorem test_shrmi_H21 : outcome 0 [(1, 0x80000000000000000000000000000000)] [] 0x8D8080BF#32 =
    (0, some 0x10000000000000000, none, false) := by decide +kernel
theorem test_shlw_H22 : outcome 0 [(1, 0x80000000000000000000000000000001)] [(2, 1)] 0x9080A000#32 =
    (0, some 0x10000000000000000, none, false) := by decide +kernel
theorem test_shlw_H23 : outcome 0 [(1, 0x80000000000000000000000000000001)] [(2, 2)] 0x9080A000#32 =
    (5, none, none, false) := by decide +kernel
theorem test_shlwi_H24 : outcome 0 [(1, 0x80000000000000000000000000000001)] [] 0x91808000#32 =
    (0, some 0x80000000000000000000000000000001, none, false) := by decide +kernel
theorem test_shrw_H25 : outcome 0 [(1, 0x80000000000000000000000000000001)] [(2, 1)] 0x9680A000#32 =
    (0, some 0xFFFFFFFFFFFFFFFF8000000000000000, none, false) := by decide +kernel
theorem test_shrw_H27 : outcome 0 [(1, 0x80000000000000000000000000000001)] [(2, 0xFFFFFFFFFFFFFFFF)] 0x9680A000#32 =
    (5, none, none, false) := by decide +kernel
theorem test_shrwi_H29 : outcome 1 [(1, 0x8000000000000000000000000000000000000000000000000000000000000001)] [] 0x97808003#32 =
    (0, some 0xFFFFFFFFFFFFFFFFFFFFFFFFFFFFFFFFFFFFFFFFFFFFFFFF8000000000000000, none, false) := by decide +kernel
theorem test_shrwi_H28 : outcome 0 [(1, 0x80000000000000000000000000000001)] [] 0x97808002#32 =
    (5, none, none, false) := by decide +kernel
theorem test_rol_H30 : outcome 0 [(1, 7)] [(2, 1)] 0x9880A000#32 =
    (0, some 0xE, none, false) := by decide +kernel
theorem test_rol_H33 : outcome 0 [(1, 0x80000000000000000000000000000001)] [(2, 0x80)] 0x9880A000#32 =
    (6, none, none, false) := by decide +kernel
theorem test_roli_H34 : outcome 0 [(1, 0x123456789ABCDEFFEDCBA9876543210)] [] 0x99808040#32 =
    (0, some 0xFEDCBA98765432100123456789ABCDEF, none, false) := by decide +kernel
theorem test_roli_H35 : outcome 0 [(1, 0x123456789ABCDEFFEDCBA9876543210)] [] 0x99808004#32 =
    (0, some 0x123456789ABCDEFFEDCBA98765432100, none, false) := by decide +kernel
theorem test_ror_H36 : outcome 0 [(1, 1)] [(2, 1)] 0x9C80A000#32 =
    (0, some 0x80000000000000000000000000000000, none, false) := by decide +kernel
theorem test_ror_H37 : outcome 0 [(1, 1)] [(2, 0xFFFFFFFFFFFFFFFF)] 0x9C80A000#32 =
    (6, none, none, false) := by decide +kernel
theorem test_rori_H38 : outcome 0 [(1, 0x123456789ABCDEFFEDCBA9876543210)] [] 0x9D808004#32 =
    (0, some 0x123456789ABCDEFFEDCBA987654321, none, false) := by decide +kernel
theorem test_rori_H40 : outcome 0 [(1, 1)] [] 0x9D808080#32 =
    (6, none, none, false) := by decide +kernel
theorem test_bget_B1 : outcome 0 [(1, 0x80000000000000000000000000000001)] [(2, 0x7F)] 0xA080A000#32 =
    (0, some 1, none, false) := by decide +kernel
theorem test_bget_B3 : outcome 0 [(1, 0x80000000000000000000000000000001)] [(2, 0xFFFFFFFFFFFFFFFF)] 0xA080A000#32 =
    (7, none, none, false) := by decide +kernel
theorem test_bgeti_B4 : outcome 0 [(1, 0x80000000000000000000000000000001)] [] 0xA1808000#32 =
    (0, some 1, none, false) := by decide +kernel
theorem test_bgeti_B5 : outcome 0 [(1, 0x80000000000000000000000000000001)] [] 0xA1808080#32 =
    (7, none, none, false) := by decide +kernel
theorem test_bset_B6 : outcome 0 [(1, 0)] [(2, 0x40)] 0xA480A000#32 =
    (0, some 0x10000000000000000, none, false) := by decide +kernel
theorem test_bseti_B7 : outcome 0 [(1, 0x80000000000000000000000000000001)] [] 0xA5808000#32 =
    (0, some 0x80000000000000000000000000000001, none, false) := by decide +kernel
theorem test_bseti_B13 : outcome 1 [(1, 0)] [] 0xA58080C8#32 =
    (0, some 0x100000000000000000000000000000000000000000000000000, none, false) := by decide +kernel
theorem test_bclr_B8 : outcome 0 [(1, 0x80000000000000000000000000000001)] [(2, 0x7F)] 0xA880A000#32 =
    (0, some 1, none, false) := by decide +kernel
theorem test_bclri_B9 : outcome 0 [(1, 0x80000000000000000000000000000001)] [] 0xA980803F#32 =
    (0, some 0x80000000000000000000000000000001, none, false) := by decide +kernel
theorem test_btgl_B10 : outcome 0 [(1, 0x80000000000000000000000000000001)] [(2, 0x3F)] 0xAC80A000#32 =
    (0, some 0x80000000000000008000000000000001, none, false) := by decide +kernel
theorem test_btgli_B11 : outcome 0 [(1, 0x80000000000000000000000000000001)] [] 0xAD80807F#32 =
    (0, some 1, none, false) := by decide +kernel
theorem test_btgli_B12 : outcome 0 [(1, 0)] [] 0xAD80FFFF#32 =
    (7, none, none, false) := by decide +kernel
/-- What a property of the state after one command says; false where there is no next state. -/
def holdsAfter (c : CmdWord) (s : State) (p : State → Bool) : Bool :=
  match writeCmd c s with
  | .next t => p t
  | _ => false

/-- DATA holds w. -/
def withData (s : State) (w : Nat) : State := s.setData (BitVec.ofNat 64 w)

/-- R324's example: n = 4, DATA = 0xABCD. -/
theorem test_wrw_word_3 : holdsAfter 0x0420_0003#32 (withData (start 1 [] []) 0xABCD)
    (fun t => t.reg 1 == [none, none, none, some 0xABCD#64] && t.fault == false) = true := by decide +kernel

/-- R413 and R405: the index n, with DATA invalid too. -/
theorem test_wrw_index_n : holdsAfter 0x0420_0002#32 (start 0 [] [])
    (fun t => t.cause == 4 && t.fcmd == 0x0420_0002#32) = true := by decide +kernel

/-- R325's example. -/
theorem test_rdw_word_0 : holdsAfter 0x0803_0000#32 (start 0 [(6, 7)] []) (fun t => t.data == some 7#64) = true := by
  decide +kernel

theorem test_rdw_invalid_word : holdsAfter 0x0803_0001#32 (start 0 [] [(6, 7)])
    (fun t => t.cause == 2 && t.data == none) = true := by decide +kernel

/-- R102's example. -/
theorem test_seqb_opens : holdsAfter 0x0F40_0000#32 State.reset
    (fun t => t.seqOpen && t.seqRd == 2 && t.seqTS == .s && t.seqSS == .s && t.seqBuf == []) = true := by decide +kernel

/-- R103's example. -/
theorem test_seqw_appends : holdsAfter 0x1000_0000#32
    { withData State.reset 0xFFFF_FFFF_FFFF_FFFF with seqOpen := true, seqBuf := [5#64] }
    (fun t => t.seqBuf == [5#64, 0xFFFF_FFFF_FFFF_FFFF#64]) = true := by decide +kernel

theorem test_seqw_no_sequence : holdsAfter 0x1000_0000#32 State.reset
    (fun t => t.cause == 3 && t.fcmd == 0x1000_0000#32) = true := by decide +kernel

/-- An open sequence into V1, which holds 7, with signed target and source. -/
def openSigned (buf : List Word) : State :=
  { start 0 [(1, 7)] [] with seqOpen := true, seqRd := 1, seqTS := .s, seqSS := .s, seqBuf := buf }

/-- R104's example. -/
theorem test_seqe_present : holdsAfter 0x1400_0000#32 (openSigned [0xFFFF_FFFF_FFFF_FFFE#64])
    (fun t => value t 1 == some 0xFFFF_FFFF_FFFF_FFFF_FFFF_FFFF_FFFF_FFFE && t.nil == false && t.seqOpen == false) =
      true := by decide +kernel

/-- R104's corner case: 2^127 into a signed register of 128 bits is absent. -/
theorem test_seqe_absent : holdsAfter 0x1400_0000#32 (openSigned [0#64, 0x8000_0000_0000_0000#64, 0#64])
    (fun t => value t 1 == some 7 && t.nil == true && t.seqBuf == []) = true := by decide +kernel

/-- R105's examples. -/
theorem test_fromwt_signed : holdsAfter 0x1960_0000#32 (withData State.reset 0xFFFF_FFFF_FFFF_FFFF)
    (fun t => value t 3 == some 0xFFFF_FFFF_FFFF_FFFF_FFFF_FFFF_FFFF_FFFF) = true := by decide +kernel

theorem test_fromwt_unsigned : holdsAfter 0x1860_0000#32 (withData State.reset 0xFFFF_FFFF_FFFF_FFFF)
    (fun t => value t 3 == some 0xFFFF_FFFF_FFFF_FFFF) = true := by decide +kernel

/-- R106's examples. -/
theorem test_fromwc_clamps : holdsAfter 0x1D00_0000#32 (withData State.reset 0x8000_0000_0000_0000)
    (fun t => value t 0 == some 0) = true := by decide +kernel

theorem test_fromwc_fits : holdsAfter 0x1F00_0000#32 (withData State.reset 0x8000_0000_0000_0000)
    (fun t => value t 0 == some 0xFFFF_FFFF_FFFF_FFFF_8000_0000_0000_0000) = true := by decide +kernel

/-- R107's examples. -/
theorem test_fromwe_absent : holdsAfter 0x2140_0000#32 (withData (start 0 [(2, 9)] []) 0xFFFF_FFFF_FFFF_FFFF)
    (fun t => value t 2 == some 9 && t.nil == true) = true := by decide +kernel

theorem test_fromwe_present : holdsAfter 0x2040_0000#32
    { withData (start 0 [(2, 9)] []) 0xFFFF_FFFF_FFFF_FFFF with nil := true }
    (fun t => value t 2 == some 0xFFFF_FFFF_FFFF_FFFF && t.nil == false) = true := by decide +kernel

/-! ## Witnesses: states and operands that meet the hypotheses of the obligations -/

/-- V1, V2 and V3 written, everything else as after reset. -/
def trio (x y z : BitVec 128) : State := ((State.reset.writeV 1 x).writeV 2 y).writeV 3 z

/-- The hypotheses that most obligations make: FAULT = 0, three registers held, and word 0 of the second. -/
abbrev Ready (s : State) (x y z : BitVec 128) : Prop :=
  s.fault = false ∧ Holds s 1 x ∧ Holds s 2 y ∧ Holds s 3 z ∧ HoldsWord s 2 0 (y.extractLsb' 0 64)

theorem trio_ready (x y z : BitVec 128) : Ready (trio x y z) x y z :=
  ⟨rfl,
    writeV_holds_ne z (by decide) (writeV_holds_ne y (by decide) (writeV_holds _ 1 x rfl)),
    writeV_holds_ne z (by decide) (writeV_holds _ 2 y rfl), writeV_holds _ 3 z rfl,
    (writeV_holds_ne z (by decide) (writeV_holds _ 2 y rfl)).2.2 0 (show 0 < 2 by decide)⟩

/-- The hypotheses of the UNINIT clauses. -/
abbrev Unwritten (s : State) : Prop := s.fault = false ∧ HasInvalid s 1 ∧ HasInvalid s 2 ∧ InvalidWord s 2 0

theorem reset_unwritten : Unwritten State.reset := ⟨rfl, ⟨0, by decide⟩, ⟨1, by decide⟩, by decide⟩

/-- A state in which the host's next event is e. -/
def hosting (e : HostEvent) : State := { State.reset with hostIn := [e] }

/-- A faulted state: SEQW with no sequence open. -/
def faulted (e : HostEvent) : State := { hosting e with fault := true, cause := 3, fcmd := 0x1000_0000, data := some 5 }

theorem witness_DecodeOfEncode : (Instr.divfw .s 7 6 5 4 3).wellFormed = true ∧ (Instr.wrw 7 32767).wellFormed = true := by
  decide

theorem witness_EncodeOfDecode : decode 0x6494_A600#32 = .ok (.divfw .u 4 5 1 2 3) := rfl

theorem witness_OpcodeTableSelectsTheLegalWords : decode 0x1000_0000#32 = .ok .seqw ∧
    (tableRow .seqw).selects 0x1000_0000#32 = true := ⟨rfl, by decide⟩

theorem witness_IllegalWordRaisesIllegalCmd : (hosting (.write 0x00 (.w32 0))).hostIn = .write 0x00 (.w32 0) :: [] ∧
    (hosting (.write 0x00 (.w32 0))).fault = false ∧ ∀ r ∈ opcodeTable, r.selects 0 = false :=
  ⟨rfl, rfl, by decide⟩

theorem witness_StepRunsTheDecodedCommand : (hosting (.write 0x00 (.w32 0x1000_0000))).hostIn =
    .write 0x00 (.w32 0x1000_0000) :: [] ∧ (hosting (.write 0x00 (.w32 0x1000_0000))).fault = false ∧
    decode 0x1000_0000#32 = .ok .seqw := ⟨rfl, rfl, rfl⟩

theorem witness_FaultEntryWritesOnlyTheFaultState : (hosting (.write 0x00 (.w32 0x1000_0000))).fault = false ∧
    ∃ t, step (hosting (.write 0x00 (.w32 0x1000_0000))) = .next t ∧ t.fault = true := ⟨rfl, _, rfl, rfl⟩

theorem witness_FaultStateIsQuiescent (e : HostEvent) : (faulted e).fault = true ∧ (faulted e).hostIn = e :: [] ∧
    (faulted e).data = some 5 := ⟨rfl, rfl, rfl⟩

theorem witness_FaultStateIsQuiescent_events : HostEvent.read 0x10 .w32 ≠ .reset .idle ∧
    (∃ t, step (faulted (.read 0x08 .w64)) = .next t) ∧ (∃ t, step (faulted (.reset .idle)) = .next t) :=
  ⟨by decide, ⟨_, rfl⟩, _, rfl⟩

theorem witness_CausesAreTheCommandsOwn : State.reset.fault = false ∧
    (∃ t, exec .seqe State.reset = .next t ∧ t.fault = true) ∧
    ∃ t, exec (.div .u 3 3 1 2) State.reset = .next t ∧ t.fault = true := ⟨rfl, ⟨_, rfl, rfl⟩, _, rfl, rfl⟩

theorem witness_InvalidSourcesRaiseUninit : State.reset.fault = false ∧ EarlyChecksPass State.reset (.not 0 1) ∧
    InvalidSource State.reset (.not 0 1) ∧ EarlyChecksPass State.reset (.rdw 1 1) ∧
    InvalidSource State.reset (.rdw 1 1) ∧ EarlyChecksPass State.reset (.fromwt .u 0) ∧
    InvalidSource State.reset (.fromwt .u 0) :=
  ⟨rfl, ⟨rfl, by simp, by simp⟩, .inl ⟨1, by simp [Instr.fullSources], 0, by decide⟩,
    ⟨rfl, by simp, by rintro r imm (h | h) <;> cases h; decide⟩,
    .inr (.inl ⟨(1, 1), by simp [Instr.wordSources], by decide⟩), ⟨rfl, by simp, by simp⟩, .inr (.inr ⟨rfl, rfl⟩)⟩

theorem witness_InvalidSourcesRaiseUninit_only : State.reset.fault = false ∧ State.reset.Wf ∧
    ∃ t, exec (.not 0 1) State.reset = .next t ∧ t.fault = true ∧ t.cause = 2 :=
  ⟨rfl, wf_resetOf _, _, rfl, rfl, rfl⟩

theorem witness_SequenceAndIndexChecksComeFirst : State.reset.fault = false ∧ State.reset.seqOpen = false ∧
    State.reset.cfg.words ≤ (2 : Imm15).toNat ∧ (openSigned []).fault = false ∧ (openSigned []).seqOpen = true :=
  ⟨rfl, rfl, by decide, rfl, rfl⟩

/-- Word 0 of V2 at −1, n = 2 and N = 128, and the immediates n and N. -/
theorem witness_RangeChecksFault : (∀ y, Ready (trio 5 y 0) 5 y 0) ∧ (-1 : Word).toInt < 0 ∧
    (2 : Int) ≤ (2 : Word).toInt ∧ (128 : Int) ≤ (128 : Word).toInt ∧ (trio 5 0 0).cfg.words ≤ (2 : Imm15).toNat ∧
    128 ≤ (128 : Imm15).toNat :=
  ⟨fun y => trio_ready 5 y 0, by decide, by decide, by decide, by decide, by decide⟩

theorem witness_DataDependentConditionsNeverFault :
    let s := { trio 1 0 3 with data := some 4, seqOpen := true }
    s.fault = false ∧ (4 : Reg) ≠ 5 ∧ Holds s 1 (1 : BitVec 128) ∧ Holds s 2 (0 : BitVec 128) ∧
      Holds s 3 (3 : BitVec 128) ∧ s.data = some 4 ∧ s.seqOpen = true :=
  ⟨rfl, by decide, (trio_ready 1 0 3).2.1, (trio_ready 1 0 3).2.2.1, (trio_ready 1 0 3).2.2.2.1, rfl, rfl⟩

theorem witness_OverflowFlagWriters : State.reset.fault = false ∧
    (∃ t, exec (.seqb .u .u 0) State.reset = .next t ∧ Instr.writesOV (.seqb .u .u 0) = false) ∧
    (∃ t, exec (.not 0 1) State.reset = .next t ∧ t.fault = true) ∧
    ∃ t, exec (.not 0 1) (trio 0 0 0) = .next t ∧ Instr.writesOV (.not 0 1) = true ∧ t.fault = false :=
  ⟨rfl, ⟨_, rfl, rfl⟩, ⟨_, rfl, rfl⟩, _, rfl, rfl, rfl⟩

theorem witness_AbsentResultFlagWriters : State.reset.fault = false ∧
    (∃ t, exec (.seqb .u .u 0) State.reset = .next t ∧ Instr.writesNIL (.seqb .u .u 0) = false) ∧
    (∃ t, exec .seqe State.reset = .next t ∧ t.fault = true) ∧
    ∃ t, exec .seqe (openSigned []) = .next t ∧ Instr.writesNIL .seqe = true ∧ t.fault = false :=
  ⟨rfl, ⟨_, rfl, rfl⟩, ⟨_, rfl, rfl⟩, _, rfl, rfl, by decide +kernel⟩

theorem witness_StagingStateIsInvisibleToOtherCommands : (openSigned [1#64]).fault = false ∧
    Instr.usesStaging (.not 0 1) = false ∧ ∃ t, exec (.not 0 1) (openSigned [1#64]) = .next t := ⟨rfl, rfl, _, rfl⟩

theorem witness_EndianIsUnobservable :
    (∃ t, runHost State.reset [putData 5, issue (.wrw 1 1), .read 0x08 .w64] = .next t) ∧
    (∃ r, runHost State.reset [.read 0x09 .w32] = .refused r) ∧
    0 < Config.smallest.words ∧ 1 < Config.smallest.words ∧
    physicalOffset { Config.smallest with endian := .big } 1 = 0 :=
  ⟨⟨_, rfl⟩, ⟨_, rfl⟩, by decide, by decide, by decide⟩

theorem witness_EveryStepKeepsTheInvariant : (faulted (.write 0x00 (.w32 7))).Inv ∧ (hosting (.write 0x00 (.w32 0))).Inv ∧
    (∃ t, step (faulted (.write 0x00 (.w32 7))) = .next t) ∧ ∃ t, step (hosting (.write 0x00 (.w32 0))) = .next t :=
  ⟨⟨wf_resetOf _, by decide, by decide⟩, ⟨wf_resetOf _, by decide, by decide⟩, ⟨_, rfl⟩, _, rfl⟩

theorem witness_ResetLeavesTheResetState : (faulted (.reset (.commandRunning 7))).hostIn =
    .reset (.commandRunning 7) :: [] ∧ ResetMoment.commandRunning 7 ≠ .accessOutstanding ∧ 1 < State.reset.cfg.words :=
  ⟨rfl, by decide, by decide⟩

theorem witness_UnsupportedAccessesAreRefused (e : HostEvent) : (hosting e).hostIn = e :: [] ∧
    0x08 ∉ [0x00, 0x04, 0x10, 0x14, 0x18, 0x1C] ∧ 0x20 ∉ [0x00, 0x04, 0x10, 0x14, 0x18, 0x1C] ∧ 0x0C ≠ 0x08 := by
  refine ⟨rfl, by decide, by decide, by decide⟩

theorem witness_WindowAccesses (e : HostEvent) : (hosting e).hostIn = e :: [] ∧ State.reset.hostIn = [] ∧
    (hosting e).data = none ∧ (faulted e).data = some 5 ∧ (hosting e).fault = false ∧ 0x1C ∈ [0x00, 0x04, 0x14, 0x1C] :=
  ⟨rfl, rfl, rfl, rfl, rfl, by decide⟩

theorem witness_StatusFields : (hosting (.write 0x10 (.w32 4))).hostIn = .write 0x10 (.w32 4) :: [] ∧
    (hosting (.read 0x10 .w32)).hostIn = .read 0x10 .w32 :: [] := ⟨rfl, rfl⟩

theorem witness_RunsAreSequential : ∃ t, runHost State.reset [putData 5, issue (.wrw 1 1)] = .next t := ⟨_, rfl⟩

/-- A carry out of 128 bits, the signed maximum plus 1, and an unwritten source. -/
theorem witness_AddAndSubtract : Ready (trio (-1) 1 0) (-1) 1 0 ∧
    Ready (trio 0x7FFF_FFFF_FFFF_FFFF_FFFF_FFFF_FFFF_FFFF 1 0) 0x7FFF_FFFF_FFFF_FFFF_FFFF_FFFF_FFFF_FFFF 1 0 ∧
    Unwritten State.reset := ⟨trio_ready _ _ _, trio_ready _ _ _, reset_unwritten⟩

theorem witness_AddAndSubtractDigit : Ready (trio 0 (-1) 0) 0 (-1) 0 ∧ Unwritten State.reset :=
  ⟨trio_ready _ _ _, reset_unwritten⟩

theorem witness_MultiplyTruncated : Ready (trio (-1) (-1) 0) (-1) (-1) 0 ∧ Unwritten State.reset :=
  ⟨trio_ready _ _ _, reset_unwritten⟩

theorem witness_MultiplyFullWidth : (4 : Reg) ≠ 5 ∧ Ready (trio (-1) (-1) 0) (-1) (-1) 0 ∧ Unwritten State.reset :=
  ⟨by decide, trio_ready _ _ _, reset_unwritten⟩

theorem witness_MultiplyFullWidthByDigit : (4 : Reg) ≠ 5 ∧ Ready (trio (-1) (-1) 0) (-1) (-1) 0 ∧ Unwritten State.reset :=
  ⟨by decide, trio_ready _ _ _, reset_unwritten⟩

/-- A zero divisor, the signed minimum by −1, and an ordinary division. -/
theorem witness_Divide : (4 : Reg) ≠ 5 ∧ Ready (trio 7 0 0) 7 0 0 ∧
    Ready (trio (.intMin 128) (.allOnes 128) 0) (.intMin 128) (.allOnes 128) 0 ∧ Ready (trio (-7) 2 0) (-7) 2 0 ∧
    Unwritten State.reset := ⟨by decide, trio_ready _ _ _, trio_ready _ _ _, trio_ready _ _ _, reset_unwritten⟩

theorem witness_DivideByDigit : (4 : Reg) ≠ 5 ∧ Ready (trio 7 0 0) 7 0 0 ∧
    Ready (trio (.intMin 128) (.allOnes 128) 0) (.intMin 128) (.allOnes 128) 0 ∧ Ready (trio (-7) 2 0) (-7) 2 0 ∧
    Unwritten State.reset := ⟨by decide, trio_ready _ _ _, trio_ready _ _ _, trio_ready _ _ _, reset_unwritten⟩

/-- A zero divisor, a quotient that fits (high below divisor), and the least one that does not. -/
theorem witness_DivideFullWidth : (4 : Reg) ≠ 5 ∧ Ready (trio 1 5 0) 1 5 0 ∧ Ready (trio 2 0 3) 2 0 3 ∧
    Ready (trio 3 0 3) 3 0 3 ∧ Unwritten State.reset :=
  ⟨by decide, trio_ready _ _ _, trio_ready _ _ _, trio_ready _ _ _, reset_unwritten⟩

theorem witness_ComplementNegateMagnitude : Ready (trio 0 0 0) 0 0 0 ∧
    Ready (trio (.intMin 128) 0 0) (.intMin 128) 0 0 ∧ Unwritten State.reset :=
  ⟨trio_ready _ _ _, trio_ready _ _ _, reset_unwritten⟩

/-- Distances 128 = N, −1 and the least 64-bit integer. -/
theorem witness_SmartShifts : Ready (trio (-5) 128 0) (-5) 128 0 ∧ Ready (trio (-5) (-1) 0) (-5) (-1) 0 ∧
    Ready (trio 5 0x8000_0000_0000_0000 0) 5 0x8000_0000_0000_0000 0 ∧ Unwritten State.reset :=
  ⟨trio_ready _ _ _, trio_ready _ _ _, trio_ready _ _ _, reset_unwritten⟩

theorem witness_MaskingShifts : Ready (trio (-5) 128 0) (-5) 128 0 ∧ Ready (trio (-5) (-1) 0) (-5) (-1) 0 ∧
    Unwritten State.reset := ⟨trio_ready _ _ _, trio_ready _ _ _, reset_unwritten⟩

/-- The counts 0, n − 1 and n. -/
theorem witness_WordShifts : (∀ y, Ready (trio 5 y 0) 5 y 0) ∧ (0 ≤ (0 : Word).toInt ∧ (0 : Word).toInt < 2) ∧
    (0 ≤ (1 : Word).toInt ∧ (1 : Word).toInt < 2) ∧ ¬(0 ≤ (2 : Word).toInt ∧ (2 : Word).toInt < 2) ∧
    (1 : Imm15).toNat < 2 ∧ ¬(2 : Imm15).toNat < 2 ∧ Unwritten State.reset :=
  ⟨fun y => trio_ready 5 y 0, by decide, by decide, by decide, by decide, by decide, reset_unwritten⟩

/-- The distances 0, N − 1 and N. -/
theorem witness_Rotations : (∀ y, Ready (trio 5 y 0) 5 y 0) ∧ (0 ≤ (0 : Word).toInt ∧ (0 : Word).toInt < 128) ∧
    (0 ≤ (127 : Word).toInt ∧ (127 : Word).toInt < 128) ∧ ¬(0 ≤ (128 : Word).toInt ∧ (128 : Word).toInt < 128) ∧
    (127 : Imm15).toNat < 128 ∧ ¬(128 : Imm15).toNat < 128 ∧ Unwritten State.reset :=
  ⟨fun y => trio_ready 5 y 0, by decide, by decide, by decide, by decide, by decide, reset_unwritten⟩

theorem witness_BitReads : (∀ y, Ready (trio 5 y 0) 5 y 0) ∧ (0 ≤ (127 : Word).toInt ∧ (127 : Word).toInt < 128) ∧
    ¬(0 ≤ (-1 : Word).toInt ∧ (-1 : Word).toInt < 128) ∧ (127 : Imm15).toNat < 128 ∧ ¬(128 : Imm15).toNat < 128 ∧
    Unwritten State.reset :=
  ⟨fun y => trio_ready 5 y 0, by decide, by decide, by decide, by decide, reset_unwritten⟩

theorem witness_BitWrites : (∀ y, Ready (trio 5 y 0) 5 y 0) ∧ (0 ≤ (127 : Word).toInt ∧ (127 : Word).toInt < 128) ∧
    ¬(0 ≤ (128 : Word).toInt ∧ (128 : Word).toInt < 128) ∧ (127 : Imm15).toNat < 128 ∧ ¬(128 : Imm15).toNat < 128 ∧
    Unwritten State.reset :=
  ⟨fun y => trio_ready 5 y 0, by decide, by decide, by decide, by decide, reset_unwritten⟩

/-- The index n − 1 with DATA valid, the index n, and an invalid DATA. -/
theorem witness_WriteWord : (withData State.reset 5).fault = false ∧ (withData State.reset 5).Wf ∧
    (withData State.reset 5).data = some 5 ∧ (1 : Imm15).toNat < (withData State.reset 5).cfg.words ∧
    (withData State.reset 5).cfg.words ≤ (2 : Imm15).toNat ∧ State.reset.Wf ∧ State.reset.data = none :=
  ⟨rfl, wf_resetOf _, rfl, by decide, by decide, wf_resetOf _, rfl⟩

theorem witness_ReadWord : (trio 1 2 3).fault = false ∧ HoldsWord (trio 1 2 3) 1 1 0 ∧
    (1 : Imm15).toNat < (trio 1 2 3).cfg.words ∧ (trio 1 2 3).cfg.words ≤ (2 : Imm15).toNat ∧
    InvalidWord State.reset 1 (1 : Imm15).toNat := ⟨rfl, by decide +kernel, by decide, by decide, by decide⟩

theorem witness_SequenceBeginAndWord : (openSigned []).fault = false ∧ (openSigned []).seqOpen = true ∧
    (withData (openSigned []) 5).data = some 5 ∧ (openSigned []).data = none ∧ State.reset.seqOpen = false :=
  ⟨rfl, rfl, rfl, rfl, rfl⟩

/-- The signed minimum of 128 bits is present, one more than the signed maximum is absent, and no sequence is open. -/
theorem witness_SequenceEnd :
    (∀ buf, (openSigned buf).fault = false ∧ (openSigned buf).cfg.width = 128 ∧ (openSigned buf).seqOpen = true) ∧
    rep 128 .s (seqval [0#64, 0x8000_0000_0000_0000#64] .s) = true ∧
    rep 128 .s (seqval [0#64, 0x8000_0000_0000_0000#64] .u) = false ∧ State.reset.seqOpen = false :=
  ⟨fun _ => ⟨rfl, rfl, rfl⟩, by decide +kernel, by decide +kernel, rfl⟩

theorem witness_ConstructFromOneWord : (withData State.reset 0x8000_0000_0000_0000).fault = false ∧
    (withData State.reset 0x8000_0000_0000_0000).cfg.width = 128 ∧
    (withData State.reset 0x8000_0000_0000_0000).data = some 0x8000_0000_0000_0000#64 ∧
    (0x8000_0000_0000_0000#64).msb = true ∧ (0x7FFF_FFFF_FFFF_FFFF#64).msb = false ∧ State.reset.data = none :=
  ⟨rfl, rfl, rfl, by decide, by decide, rfl⟩

theorem witness_SequenceRoundTrip : State.reset.fault = false ∧ State.reset.cfg.width = 128 := ⟨rfl, rfl⟩

theorem witness_AddThenSubtractRestores : (4 : Reg) ≠ 2 ∧ Ready (trio 5 (-1) 0) 5 (-1) 0 ∧
    ∃ t, exec (.add .s 4 1 2) (trio 5 (-1) 0) = .next t ∧ t.ov = false :=
  ⟨by decide, trio_ready _ _ _, _, rfl, by decide +kernel⟩

theorem witness_MultiplicationIsExact : (4 : Reg) ≠ 5 ∧ Ready (trio (-1) 1 0) (-1) 1 0 := ⟨by decide, trio_ready _ _ _⟩

theorem witness_DivisionIdentity : (4 : Reg) ≠ 5 ∧ Ready (trio (-7) 2 0) (-7) 2 0 ∧ (2 : BitVec 128) ≠ 0 ∧
    ∃ t, exec (.div .s 4 5 1 2) (trio (-7) 2 0) = .next t ∧ t.ov = false :=
  ⟨by decide, trio_ready _ _ _, by decide, _, rfl, by decide +kernel⟩

theorem witness_SignLaws : Ready (trio (.intMin 128) 0 0) (.intMin 128) 0 0 := trio_ready _ _ _

theorem witness_ShiftLaws : (∀ x, Ready (trio x 3 0) x 3 0) ∧ (127 : Imm15).toNat < 128 ∧ (128 : Imm15).toNat = 128 ∧
    (1 : Imm15).toNat < (trio 5 3 0).cfg.words ∧ (64 : Imm15).toNat = 64 * (1 : Imm15).toNat ∧
    HoldsWord (trio 5 3 (-3)) 2 0 3 ∧ HoldsWord (trio 5 3 (-3)) 3 0 (-3) ∧ (-3 : Word).toInt = -(3 : Word).toInt :=
  ⟨fun x => trio_ready x 3 0, by decide, by decide, by decide, by decide, by decide +kernel, by decide +kernel, by decide⟩

theorem witness_BitLaws : Ready (trio 5 127 0) 5 127 0 ∧ (127 : Imm15).toNat < 128 ∧
    (127 : Word).toInt = ((127 : Imm15).toNat : Int) := ⟨trio_ready _ _ _, by decide, by decide⟩

theorem witness_WordAccessLaws : State.reset.fault = false ∧ State.reset.Wf ∧ State.reset.cfg.width = 128 ∧
    (0 : Imm15).toNat < State.reset.cfg.words ∧ (1 : Imm15).toNat < State.reset.cfg.words ∧ (0 : Imm15) ≠ 1 ∧
    State.reset.cfg.words ≤ 2 ^ 15 := ⟨rfl, wf_resetOf _, rfl, by decide, by decide, by decide, by decide⟩

theorem witness_HalfWidthDatapathsRefine : Ready (trio (-1) 1 0) (-1) 1 0 ∧ 1 = (trio (-1) 1 0).cfg.levels + 1 :=
  ⟨trio_ready _ _ _, rfl⟩

theorem witness_DigitRipplesRefine : Ready (trio (-1) 1 0) (-1) 1 0 := trio_ready _ _ _

/-- Factors of the same sign and of different signs. -/
theorem witness_MultiplierTreeRefines : Ready (trio (-1) (-1) 0) (-1) (-1) 0 ∧ Ready (trio (-1) 1 0) (-1) 1 0 ∧
    1 = (trio (-1) (-1) 0).cfg.levels + 1 ∧ 1 = (trio (-1) 1 0).cfg.levels + 1 ∧ levelWidth 1 = 128 ∧ (4 : Reg) ≠ 5 :=
  ⟨trio_ready _ _ _, trio_ready _ _ _, rfl, rfl, rfl, by decide⟩

/-- R163's corner case (−1) · 1 by the wrapper of R162: both halves all-ones, no overflow. -/
theorem test_smulfwRef_signs_differ : (smulfwRef 1 (-1) 1).1.toNat = 2 ^ 128 - 1 ∧
    (smulfwRef 1 (-1) 1).2.1.toNat = 2 ^ 128 - 1 ∧ (smulfwRef 1 (-1) 1).2.2 = false := by decide +kernel

theorem witness_WordSerialDatapathsRefine : Ready (trio (-1) (-1) 0) (-1) (-1) 0 ∧ (4 : Reg) ≠ 5 ∧
    (127 : Imm15).toNat < 128 := ⟨trio_ready _ _ _, by decide, by decide⟩

theorem witness_LongDivisionRefines : Ready (trio (.intMin 128) (-1) 3) (.intMin 128) (-1) 3 ∧
    2 = (trio (.intMin 128) (-1) 3).cfg.words ∧ (4 : Reg) ≠ 5 ∧ (-1 : BitVec 128) ≠ 0 ∧
    (-1 : BitVec 128).extractLsb' 0 64 ≠ 0 ∧ (3 : BitVec 128) ≠ 0 :=
  ⟨trio_ready _ _ _, rfl, by decide, by decide, by decide, by decide⟩

/-- A division in which a trial digit is decremented twice. -/
theorem witness_LongDivisionIsExactWithTwoCorrections :
    let u : List Word := [0, 0, 0x7FFF_FFFF_FFFF_FFFF]
    let v : List Word := [0xFFFF_FFFF_FFFF_FFFF, 0x8000_0000_0000_0000]
    wordsVal v ≠ 0 ∧ 1 ≤ minLastIndex v ∧ wordsVal v < wordsVal u ∧ 2 ∈ (knuthDivide u v).2.2 :=
  ⟨by decide, by decide, by decide, by decide +kernel⟩

end Sys2Proof.Tests
end

/-! ## Decoding gives back a word's own command

Every row of R79 builds commands whose word is the row's word (`encode_build`), and a word that a row selects and
accepts is that row's word for its own fields (`Row.word_fieldsOf`). -/

namespace Sys2Proof

/-- A register field where the row uses it, 0 where it does not (R79). -/
def fieldIf (used : Bool) (r : Reg) : Reg := bif used then r else 0

/-- The word that a row's fields make once every field that the row does not use is 0 (R71, R72, R79). -/
def Row.word (r : Row) (f : Fields) : CmdWord :=
  match r.format with
  | .r => wordR r.op (r.sAny && f.s) (r.x.getD f.x) (fieldIf r.usesRD f.rd) (fieldIf r.usesRE f.re)
      (fieldIf r.usesRA f.ra) (fieldIf r.usesRB f.rb) (fieldIf r.usesRC f.rc)
  | .i => wordI r.op (r.sAny && f.s) (r.x.getD f.x) (fieldIf r.usesRD f.rd) (fieldIf r.usesRA f.ra) f.imm

theorem fieldIf_eq {used : Bool} {r : Reg} (h : used = true ∨ (r == 0) = true) : fieldIf used r = r := by
  cases used <;> simp_all [fieldIf]

/-- What the checks of R82 say of a row that accepts: S, the unused fields and the two destinations. -/
theorem Row.accept_eq_ok {r : Row} {f : Fields} {i : Instr} (h : r.accept f = .ok i) :
    (r.sAny && f.s) = f.s ∧ r.unusedZero f = true ∧ (r.usesRE = true → f.rd ≠ f.re) ∧ i = r.build f := by
  unfold Row.accept at h
  split at h
  · cases h
  next hs =>
  split at h
  · cases h
  next hz =>
  split at h
  · cases h
  next hd =>
  refine ⟨?_, by simpa using hz, by simpa using hd, (Except.ok.inj h).symm⟩
  cases hf : f.s <;> simp_all

/-- A word whose field Z is 0 is the word of format R that its fields make (R71). -/
theorem wordR_fieldsOf {c : CmdWord} (hz : (fieldsOf c).z = 0) :
    wordR (fieldsOf c).op (fieldsOf c).s (fieldsOf c).x (fieldsOf c).rd (fieldsOf c).re (fieldsOf c).ra (fieldsOf c).rb
      (fieldsOf c).rc = c := by
  apply BitVec.eq_of_toNat_eq
  rw [wordR_toNat, word_toNat c, imm_toNat c, hz]
  simp only [BitVec.ofNat_eq_ofNat, BitVec.toNat_ofNat]
  omega

/-- A word whose field RE is 0 is the word of format I that its fields make (R72). -/
theorem wordI_fieldsOf {c : CmdWord} (hre : (fieldsOf c).re = 0) :
    wordI (fieldsOf c).op (fieldsOf c).s (fieldsOf c).x (fieldsOf c).rd (fieldsOf c).ra (fieldsOf c).imm = c := by
  apply BitVec.eq_of_toNat_eq
  rw [wordI_toNat, word_toNat c, hre]
  simp

/-- The OP and the X of a row that is selected are those of the fields (R82). -/
theorem Row.selects_eq_true {r : Row} {f : Fields} (h : r.selects f = true) : r.op = f.op ∧ r.x.getD f.x = f.x := by
  simp only [Row.selects, Bool.and_eq_true, Bool.or_eq_true, beq_iff_eq] at h
  obtain ⟨hop, hx | hx⟩ := h <;> simp [hop, hx]

/-- A word that a row selects and accepts is the word that its own fields make in that row (R71, R72, R82). -/
theorem Row.word_fieldsOf {r : Row} {c : CmdWord} {i : Instr} (hs : r.selects (fieldsOf c) = true)
    (ha : r.accept (fieldsOf c) = .ok i) (hi : r.format = .i → r.usesRE = false) : r.word (fieldsOf c) = c := by
  obtain ⟨hop, hx⟩ := Row.selects_eq_true hs
  obtain ⟨hS, hz, -, -⟩ := Row.accept_eq_ok ha
  simp only [Row.unusedZero, Bool.and_eq_true, Bool.or_eq_true] at hz
  obtain ⟨⟨⟨hrd, hre⟩, hra⟩, hfmt⟩ := hz
  cases hf : r.format with
  | r =>
    obtain h | ⟨⟨hrb, hrc⟩, hz⟩ := hfmt
    · simp [hf] at h
    · simp only [Row.word, hf, hop, hS, hx, fieldIf_eq hrd, fieldIf_eq hre, fieldIf_eq hra, fieldIf_eq hrb,
        fieldIf_eq hrc]
      exact wordR_fieldsOf (by simpa using hz)
  | i =>
    simp only [Row.word, hf, hop, hS, hx, fieldIf_eq hrd, fieldIf_eq hra]
    exact wordI_fieldsOf (by simpa [hi hf] using hre)

/-- Every command that a row builds has the word of that row (R79). -/
theorem encode_build : ∀ r ∈ rows, ∀ f, encode (r.build f) = r.word f := by
  simp [rows, arithRows, shiftRows, Row.dab, Row.dai, Row.da, Row.dest, Row.deab, Row.word, encode, fieldIf, Fields.sg,
    Fields.xg, bit_ofBit]

/-- The commands that R80 (e) refuses are those of the two-destination rows with RD = RE. -/
theorem wellFormed_build : ∀ r ∈ rows, ∀ f, (r.build f).wellFormed = (!r.usesRE || f.rd != f.re) := by
  simp [rows, arithRows, shiftRows, Row.dab, Row.dai, Row.da, Row.dest, Row.deab, Instr.wellFormed, Instr.twoDest]

theorem usesRE_of_format_i : ∀ r ∈ rows, r.format = .i → r.usesRE = false := by
  simp [rows, arithRows, shiftRows, Row.dab, Row.dai, Row.da, Row.dest, Row.deab]

/-- The row that a decoded word selects (R82). -/
theorem decode_eq_ok {c : CmdWord} {i : Instr} (h : decode c = .ok i) :
    ∃ r ∈ rows, r.selects (fieldsOf c) = true ∧ r.accept (fieldsOf c) = .ok i := by
  unfold decode at h
  split at h
  next r hr => exact ⟨r, List.mem_of_find?_eq_some hr, by simpa using List.find?_some hr, h⟩
  next => split at h <;> cases h

/-- A word that decodes is the word of the command it decodes to (R80, R82). -/
theorem encode_of_decode {c : CmdWord} {i : Instr} (h : decode c = .ok i) : encode i = c := by
  obtain ⟨r, hr, hs, ha⟩ := decode_eq_ok h
  obtain ⟨-, -, -, rfl⟩ := Row.accept_eq_ok ha
  rw [encode_build r hr, Row.word_fieldsOf hs ha (usesRE_of_format_i r hr)]

/-- A word that decodes names two different destinations where it names two (R80 (e)). -/
theorem wellFormed_of_decode {c : CmdWord} {i : Instr} (h : decode c = .ok i) : i.wellFormed = true := by
  obtain ⟨r, hr, -, ha⟩ := decode_eq_ok h
  obtain ⟨-, -, hne, rfl⟩ := Row.accept_eq_ok ha
  rw [wellFormed_build r hr]
  cases hre : r.usesRE with
  | false => rfl
  | true => simpa using hne hre

end Sys2Proof

namespace Sys2Proof.Machine

/-! ## Causes of reads -/

/-- A read followed by a reading of its value fails only where the read does. -/
theorem bind_ok_eq_error {α β : Type} {x : Except Cause α} {g : α → β} {k : Cause}
    (h : (x >>= fun a => .ok (g a)) = .error k) : x = .error k := by
  obtain h | ⟨a, -, h⟩ := bind_eq_error_iff.1 h
  · exact h
  · cases h

theorem readVal_eq_error {s : State} {sg : Sign} {r : Reg} {k : Cause} (h : readVal s sg r = .error k) :
    k = .uninit := readV_eq_error (bind_ok_eq_error h)

theorem readDigit_eq_error {s : State} {sg : Sign} {r : Reg} {k : Cause} (h : readDigit s sg r = .error k) :
    k = .uninit := readWord_eq_error (bind_ok_eq_error h)

theorem readDist_eq_error {s : State} {r : Reg} {k : Cause} (h : readDist s r = .error k) : k = .uninit :=
  readWord_eq_error (bind_ok_eq_error h)

theorem readDataVal_eq_error {s : State} {sg : Sign} {k : Cause} (h : readDataVal s sg = .error k) : k = .uninit :=
  readData_eq_error (bind_ok_eq_error h)

/-! ## Replacing the flags and the staging state -/

/-- `t` with OV, NIL and the staging state, each where its switch is on, taken from `u`. -/
def State.borrow (t u : State) (ov nil staging : Bool) : State :=
  { t with
    ov := bif ov then u.ov else t.ov
    nil := bif nil then u.nil else t.nil
    seqOpen := bif staging then u.seqOpen else t.seqOpen
    seqRd := bif staging then u.seqRd else t.seqRd
    seqTS := bif staging then u.seqTS else t.seqTS
    seqSS := bif staging then u.seqSS else t.seqSS
    seqBuf := bif staging then u.seqBuf else t.seqBuf }

/-- `s` as another state `u` would show it to the command `i`: both flags are those of `u`, and so is the staging state
unless the command belongs to the word-sequence load. -/
abbrev State.before (s : State) (i : Instr) (u : State) : State := s.borrow u true true (!i.usesStaging)

/-- What the completed command `i` leaves of `u` in its result `t`: what the rules do not let it write. -/
abbrev State.after (t : State) (i : Instr) (u : State) : State :=
  t.borrow u (!i.writesOV) (!i.writesNIL) (!i.usesStaging)

/-! ## What a completing command keeps

The fault state, and the two parts of the invariant that its writes could break. -/

/-- What every completing command keeps of the invariant. -/
structure Keeps (s t : State) : Prop where
  fault : t.fault = s.fault
  cause : t.cause = s.cause
  fcmd : t.fcmd = s.fcmd
  wf : s.Wf → t.Wf
  seq : s.SeqCoherent → t.SeqCoherent

theorem Keeps.refl (s : State) : Keeps s s := ⟨rfl, rfl, rfl, id, id⟩

theorem Keeps.writeV {N : Nat} {s t : State} (h : Keeps s t) (r : Reg) (x : BitVec N) : Keeps s (t.writeV r x) :=
  ⟨h.fault, h.cause, h.fcmd, fun hs => wf_writeV (h.wf hs) r x, h.seq⟩

theorem Keeps.writeWord {s t : State} (h : Keeps s t) (r : Reg) (k : Nat) (w : Word) : Keeps s (t.writeWord r k w) :=
  ⟨h.fault, h.cause, h.fcmd, fun hs => wf_writeWord (h.wf hs) r k w, h.seq⟩

theorem Keeps.setOV {s t : State} (h : Keeps s t) (b : Bool) : Keeps s (t.setOV b) :=
  ⟨h.fault, h.cause, h.fcmd, h.wf, h.seq⟩

theorem Keeps.setNIL {s t : State} (h : Keeps s t) (b : Bool) : Keeps s (t.setNIL b) :=
  ⟨h.fault, h.cause, h.fcmd, h.wf, h.seq⟩

theorem Keeps.setData {s t : State} (h : Keeps s t) (w : Word) : Keeps s (t.setData w) :=
  ⟨h.fault, h.cause, h.fcmd, h.wf, h.seq⟩

theorem Keeps.closeSeq {s t : State} (h : Keeps s t) : Keeps s t.closeSeq :=
  ⟨h.fault, h.cause, h.fcmd, h.wf, fun _ _ => ⟨rfl, rfl, rfl, rfl⟩⟩

theorem Keeps.writeOptional {s t : State} (h : Keeps s t) (sg : Sign) (rd : Reg) (v : Int) :
    Keeps s (t.writeOptional sg rd v) := by
  unfold State.writeOptional
  split
  · exact (h.writeV ..).setNIL _
  · exact h.setNIL _

theorem keeps_openSeq (s : State) (rd : Reg) (ts ss : Sign) : Keeps s (s.openSeq rd ts ss) :=
  ⟨rfl, rfl, rfl, id, nofun⟩

/-- An appended word keeps the staging state coherent since the sequence is open (R103). -/
theorem keeps_pushSeq {s : State} (hopen : s.seqOpen = true) (w : Word) : Keeps s (s.pushSeq w) :=
  ⟨rfl, rfl, rfl, id, fun _ h => Bool.noConfusion (hopen.symm.trans h)⟩

/-! ## Commands at two states that differ only in what they do not read -/

/-- The body `x` of the command `i` at `s`, and `y` at `s` as `u` shows it, end alike: they complete, and `y` leaves what
`x` leaves except for what the command does not write; or they fault with one cause. -/
def Alike (i : Instr) (s u : State) : Except Cause State → Except Cause State → Prop
  | .ok t, .ok t' => t' = t.after i u ∧ Keeps s t
  | .error k, .error k' => k' = k ∧ (k = .illegalCmd → i.wellFormed = false)
  | _, _ => False

/-- What a construction that may be absent writes is the same under other flags and another staging state. -/
theorem writeOptional_borrow (s u : State) (ov staging : Bool) (sg : Sign) (rd : Reg) (v : Int) :
    (s.borrow u ov true staging).writeOptional sg rd v = (s.writeOptional sg rd v).borrow u ov false staging := by
  cases h : rep s.cfg.width sg v with
  | true =>
    have h' : rep (s.borrow u ov true staging).cfg.width sg v = true := h
    rw [State.writeOptional, State.writeOptional, if_pos h, if_pos h']
    rfl
  | false =>
    rw [(writeOptional_spec s sg rd v).2 h, (writeOptional_spec (s.borrow u ov true staging) sg rd v).2 h]
    rfl

theorem check_ne_illegalCmd {b : Bool} {j k : Cause} (hj : j ≠ .illegalCmd) (h : check b j = .error k) :
    k ≠ .illegalCmd := by
  rwa [(check_eq_error_iff.1 h).2]

/-! ### The parts of a body

The reads of a body look at N, the registers and DATA only, so at `s.before i u` they are those at `s`, by the
definition of `State.borrow`. -/

section
variable {i : Instr} {s u : State}

theorem alike_ok {t t' : State} (h : t' = t.after i u) (hk : Keeps s t) : Alike i s u (.ok t) (.ok t') := ⟨h, hk⟩

theorem alike_read {α : Type} {x : Except Cause α} {f g : α → Except Cause State} (hx : ∀ k, x = .error k → k = .uninit)
    (h : ∀ a, Alike i s u (f a) (g a)) : Alike i s u (x >>= f) (x >>= g) := by
  cases x with
  | ok a => exact h a
  | error k => exact ⟨rfl, fun hk => by simpa [hk] using hx k rfl⟩

theorem alike_readV {N : Nat} {r : Reg} {f g : BitVec N → Except Cause State} (h : ∀ a, Alike i s u (f a) (g a)) :
    Alike i s u (readV N s r >>= f) (readV N (s.before i u) r >>= g) :=
  alike_read (fun _ => readV_eq_error) h

theorem alike_readWord {r : Reg} {k : Nat} {f g : Word → Except Cause State} (h : ∀ a, Alike i s u (f a) (g a)) :
    Alike i s u (readWord s r k >>= f) (readWord (s.before i u) r k >>= g) :=
  alike_read (fun _ => readWord_eq_error) h

theorem alike_readVal {sg : Sign} {r : Reg} {f g : Int → Except Cause State} (h : ∀ a, Alike i s u (f a) (g a)) :
    Alike i s u (readVal s sg r >>= f) (readVal (s.before i u) sg r >>= g) :=
  alike_read (fun _ => readVal_eq_error) h

theorem alike_readDigit {sg : Sign} {r : Reg} {f g : Int → Except Cause State} (h : ∀ a, Alike i s u (f a) (g a)) :
    Alike i s u (readDigit s sg r >>= f) (readDigit (s.before i u) sg r >>= g) :=
  alike_read (fun _ => readDigit_eq_error) h

theorem alike_readData {f g : Word → Except Cause State} (h : ∀ a, Alike i s u (f a) (g a)) :
    Alike i s u (readData s >>= f) (readData (s.before i u) >>= g) :=
  alike_read (fun _ => readData_eq_error) h

theorem alike_readDataVal {sg : Sign} {f g : Int → Except Cause State} (h : ∀ a, Alike i s u (f a) (g a)) :
    Alike i s u (readDataVal s sg >>= f) (readDataVal (s.before i u) sg >>= g) :=
  alike_read (fun _ => readDataVal_eq_error) h

/-- A check that both bodies make: its cause is ILLEGAL_CMD only where the command is ill-formed. -/
theorem alike_check {b : Bool} {k : Cause} {f g : Unit → Except Cause State}
    (hk : k = .illegalCmd → b = false → i.wellFormed = false) (h : b = true → Alike i s u (f ()) (g ())) :
    Alike i s u (check b k >>= f) (check b k >>= g) := by
  cases b with
  | true => exact h rfl
  | false => exact ⟨rfl, fun e => hk e rfl⟩

theorem alike_writeV {N : Nat} {rd : Reg} {x : BitVec N} (hov : i.writesOV = false) (hnil : i.writesNIL = false) :
    Alike i s u (.ok (s.writeV rd x)) (.ok ((s.before i u).writeV rd x)) :=
  alike_ok (by rw [State.after, hov, hnil]; rfl) ((Keeps.refl s).writeV ..)

theorem alike_writeV_setOV {N : Nat} {rd : Reg} {x : BitVec N} {b : Bool} (hov : i.writesOV = true)
    (hnil : i.writesNIL = false) :
    Alike i s u (.ok ((s.writeV rd x).setOV b)) (.ok (((s.before i u).writeV rd x).setOV b)) :=
  alike_ok (by rw [State.after, hov, hnil]; rfl) (((Keeps.refl s).writeV ..).setOV _)

theorem alike_writeProduct {rd re : Reg} {P : Int} (hov : i.writesOV = false) (hnil : i.writesNIL = false) :
    Alike i s u (.ok (s.writeProduct rd re P)) (.ok ((s.before i u).writeProduct rd re P)) :=
  alike_ok (by rw [State.after, hov, hnil]; rfl) (((Keeps.refl s).writeV ..).writeV ..)

theorem alike_writeQR {rd re : Reg} {q r : Int} {b : Bool} (hov : i.writesOV = true) (hnil : i.writesNIL = false) :
    Alike i s u (.ok (s.writeQR rd re q r b)) (.ok ((s.before i u).writeQR rd re q r b)) :=
  alike_ok (by rw [State.after, hov, hnil]; rfl) ((((Keeps.refl s).writeV ..).writeV ..).setOV _)

/-- The body of a shift or rotation: no flag is written, and every cause is that of a read or of the range check. -/
theorem alike_shiftBody {rd ra : Reg} {dist : Except Cause Int} {guard : Int → Except Cause Unit}
    {f : BitVec s.cfg.width → Int → BitVec s.cfg.width} (hov : i.writesOV = false) (hnil : i.writesNIL = false)
    (hd : ∀ k, dist = .error k → k = .uninit) (hg : ∀ d k, guard d = .error k → k ≠ .illegalCmd) :
    Alike i s u (shiftBody s rd ra dist guard f) (shiftBody (s.before i u) rd ra dist guard f) := by
  refine alike_readV fun x => alike_read hd fun d => ?_
  cases hgd : guard d with
  | ok _ => exact alike_writeV hov hnil
  | error k => exact ⟨rfl, fun hk => absurd hk (hg d k hgd)⟩

/-- The body of a bit access: no flag is written, and every cause is UNINIT or BIT_INDEX. -/
theorem alike_bitBody {rd ra : Reg} {index : Except Cause Int} {f : BitVec s.cfg.width → Nat × Nat → BitVec s.cfg.width}
    (hov : i.writesOV = false) (hnil : i.writesNIL = false) (hx : ∀ k, index = .error k → k = .uninit) :
    Alike i s u (bitBody s rd ra index f) (bitBody (s.before i u) rd ra index f) :=
  alike_readV fun _ => alike_read hx fun _ => alike_check nofun fun _ => alike_writeV hov hnil

end

/-! ### Every command -/

/-- The bodies of a command at two states that differ only in what it does not read, part by part. -/
theorem exec_alike (i : Instr) (s u : State) :
    ∃ x y, exec i s = command i s x ∧ exec i (s.before i u) = command i (s.before i u) y ∧ Alike i s u x y := by
  cases i with
  | wrw => exact ⟨_, _, rfl, rfl,
      alike_check nofun fun _ => alike_readData fun _ => alike_ok rfl ((Keeps.refl s).writeWord ..)⟩
  | rdw => exact ⟨_, _, rfl, rfl,
      alike_check nofun fun _ => alike_readWord fun _ => alike_ok rfl ((Keeps.refl s).setData _)⟩
  | seqb => exact ⟨_, _, rfl, rfl, alike_ok rfl (keeps_openSeq ..)⟩
  | seqw => exact ⟨_, _, rfl, rfl,
      alike_check nofun fun hopen => alike_readData fun _ => alike_ok rfl (keeps_pushSeq hopen _)⟩
  | seqe => exact ⟨_, _, rfl, rfl, alike_check nofun fun _ =>
      alike_ok (congrArg State.closeSeq (writeOptional_borrow ..)) ((Keeps.refl s).writeOptional ..).closeSeq⟩
  | fromwt | fromwc => exact ⟨_, _, rfl, rfl, alike_readDataVal fun _ => alike_writeV rfl rfl⟩
  | fromwe => exact ⟨_, _, rfl, rfl,
      alike_readDataVal fun _ => alike_ok (writeOptional_borrow ..) ((Keeps.refl s).writeOptional ..)⟩
  | add | sub | mul => exact ⟨_, _, rfl, rfl,
      alike_readVal fun _ => alike_readVal fun _ => alike_writeV_setOV rfl rfl⟩
  | addd | subd | muld => exact ⟨_, _, rfl, rfl,
      alike_readVal fun _ => alike_readDigit fun _ => alike_writeV_setOV rfl rfl⟩
  | mulfw => exact ⟨_, _, rfl, rfl,
      alike_check (fun _ => id) fun _ => alike_readVal fun _ => alike_readVal fun _ => alike_writeProduct rfl rfl⟩
  | mulfwd => exact ⟨_, _, rfl, rfl,
      alike_check (fun _ => id) fun _ => alike_readVal fun _ => alike_readDigit fun _ => alike_writeProduct rfl rfl⟩
  | div => exact ⟨_, _, rfl, rfl,
      alike_check (fun _ => id) fun _ => alike_readVal fun _ => alike_readVal fun _ => alike_writeQR rfl rfl⟩
  | divfw => exact ⟨_, _, rfl, rfl,
      alike_check (fun _ => id) fun _ => alike_readVal fun _ => alike_readVal fun _ => alike_readVal fun _ => by
        split <;> exact alike_writeQR rfl rfl⟩
  | divd => exact ⟨_, _, rfl, rfl,
      alike_check (fun _ => id) fun _ => alike_readVal fun _ => alike_readDigit fun _ => alike_readDigit fun _ =>
        alike_writeQR rfl rfl⟩
  | not | neg => exact ⟨_, _, rfl, rfl, alike_readV fun _ => alike_writeV_setOV rfl rfl⟩
  | mag => exact ⟨_, _, rfl, rfl, alike_readVal fun _ => alike_writeV rfl rfl⟩
  | shl | shr | shlm | shrm => exact ⟨_, _, rfl, rfl,
      alike_shiftBody rfl rfl (fun _ => readDist_eq_error) nofun⟩
  | shli | shri | shlmi | shrmi => exact ⟨_, _, rfl, rfl, alike_shiftBody rfl rfl nofun nofun⟩
  | shlw | shrw | rol | ror => exact ⟨_, _, rfl, rfl,
      alike_shiftBody rfl rfl (fun _ => readDist_eq_error) fun _ _ => check_ne_illegalCmd nofun⟩
  | shlwi | shrwi | roli | rori => exact ⟨_, _, rfl, rfl,
      alike_shiftBody rfl rfl nofun fun _ _ => check_ne_illegalCmd nofun⟩
  | bget | bset | bclr | btgl => exact ⟨_, _, rfl, rfl, alike_bitBody rfl rfl fun _ => readDist_eq_error⟩
  | bgeti | bseti | bclri | btgli => exact ⟨_, _, rfl, rfl, alike_bitBody rfl rfl nofun⟩

/-- Everything a command can do: it completes, alike at every state that differs only in what it does not read, or it
faults there with one cause. -/
theorem exec_cases (i : Instr) (s u : State) :
    (∃ t, exec i s = .next t ∧ exec i (s.before i u) = .next (t.after i u) ∧ Keeps s t) ∨
      ∃ k, exec i s = .next (enterFault k (encode i) s) ∧
        exec i (s.before i u) = .next (enterFault k (encode i) (s.before i u)) ∧
        (k = .illegalCmd → i.wellFormed = false) := by
  obtain ⟨x, y, hx, hy, h⟩ := exec_alike i s u
  rw [hx, hy]
  match x, y, h with
  | .ok t, .ok _, ⟨rfl, hk⟩ => exact .inl ⟨t, rfl, rfl, hk⟩
  | .error k, .error _, ⟨rfl, hk⟩ => exact .inr ⟨_, rfl, rfl, hk⟩

/-! ## What a command neither reads nor writes -/

@[simp] theorem borrow_self (s : State) (ov nil staging : Bool) : s.borrow s ov nil staging = s := by
  simp only [State.borrow, Bool.cond_self]

/-- A command at a state that differs only in what it does not read: the result differs only in what it has not written,
and a faulting command has written no flag (R27, R29, R403, R456). -/
theorem exec_before {i : Instr} {s t : State} (u : State) (hs : s.fault = false) (h : exec i s = .next t) :
    exec i (s.before i u) =
      .next (t.borrow u (t.fault || !i.writesOV) (t.fault || !i.writesNIL) (!i.usesStaging)) := by
  obtain ⟨t', ht, hu, hk⟩ | ⟨k, ht, hu, -⟩ := exec_cases i s u
  · obtain rfl : t' = t := by simpa [ht] using h
    simpa [hk.fault, hs] using hu
  · obtain rfl : enterFault k (encode i) s = t := by simpa [ht] using h
    exact hu

/-- What a command has not written is as it was. -/
theorem exec_frame {i : Instr} {s t : State} (hs : s.fault = false) (h : exec i s = .next t) :
    t.borrow s (t.fault || !i.writesOV) (t.fault || !i.writesNIL) (!i.usesStaging) = t := by
  have hx := exec_before s hs h
  rw [State.before, borrow_self, h] at hx
  exact (Host.Outcome.next.inj hx).symm

theorem borrow_setOV (s t : State) (b ov nil staging : Bool) :
    t.borrow (s.setOV b) ov nil staging =
      bif ov then (t.borrow s ov nil staging).setOV b else t.borrow s ov nil staging := by
  cases ov <;> rfl

theorem borrow_setNIL (s t : State) (b ov nil staging : Bool) :
    t.borrow (s.setNIL b) ov nil staging =
      bif nil then (t.borrow s ov nil staging).setNIL b else t.borrow s ov nil staging := by
  cases nil <;> rfl

/-- The state with another staging state (R34). -/
def State.setStaging (s : State) (op : Bool) (rd : Reg) (ts ss : Sign) (buf : List Word) : State :=
  { s with seqOpen := op, seqRd := rd, seqTS := ts, seqSS := ss, seqBuf := buf }

theorem borrow_setStaging (s t : State) (op : Bool) (rd : Reg) (ts ss : Sign) (buf : List Word) (ov nil : Bool) :
    t.borrow (s.setStaging op rd ts ss buf) ov nil true = (t.borrow s ov nil true).setStaging op rd ts ss buf := rfl

/-- A command at a state with another OV (R27). -/
theorem exec_setOV {i : Instr} {s t : State} (b : Bool) (hs : s.fault = false) (h : exec i s = .next t) :
    exec i (s.setOV b) = .next (bif t.fault || !i.writesOV then t.setOV b else t) := by
  have hx := exec_before (s.setOV b) hs h
  rwa [State.before, borrow_setOV, borrow_setOV, borrow_self, exec_frame hs h] at hx

/-- A command at a state with another NIL (R29). -/
theorem exec_setNIL {i : Instr} {s t : State} (b : Bool) (hs : s.fault = false) (h : exec i s = .next t) :
    exec i (s.setNIL b) = .next (bif t.fault || !i.writesNIL then t.setNIL b else t) := by
  have hx := exec_before (s.setNIL b) hs h
  rwa [State.before, borrow_setNIL, borrow_setNIL, borrow_self, exec_frame hs h] at hx

theorem exec_ov {i : Instr} {s t : State} (hs : s.fault = false) (h : exec i s = .next t)
    (hk : (t.fault || !i.writesOV) = true) : t.ov = s.ov := by
  rw [← exec_frame hs h, hk]
  rfl

theorem exec_nil {i : Instr} {s t : State} (hs : s.fault = false) (h : exec i s = .next t)
    (hk : (t.fault || !i.writesNIL) = true) : t.nil = s.nil := by
  rw [← exec_frame hs h, hk]
  rfl

/-- A command outside the word-sequence load at a state with another staging state (R456). -/
theorem exec_setStaging {i : Instr} {s t : State} (op : Bool) (rd : Reg) (ts ss : Sign) (buf : List Word)
    (hs : s.fault = false) (hi : i.usesStaging = false) (h : exec i s = .next t) :
    exec i (s.setStaging op rd ts ss buf) = .next (t.setStaging op rd ts ss buf) := by
  have hx := exec_before (s.setStaging op rd ts ss buf) hs h
  have hframe := exec_frame hs h
  rw [hi, Bool.not_false] at hframe
  rwa [State.before, hi, Bool.not_false, borrow_setStaging, borrow_setStaging, borrow_self, hframe] at hx

theorem exec_staging {i : Instr} {s t : State} (hs : s.fault = false) (hi : i.usesStaging = false)
    (h : exec i s = .next t) : t.seqOpen = s.seqOpen ∧ t.seqRd = s.seqRd ∧ t.seqTS = s.seqTS ∧ t.seqSS = s.seqSS ∧
      t.seqBuf = s.seqBuf := by
  rw [← exec_frame hs h, hi]
  exact ⟨rfl, rfl, rfl, rfl, rfl⟩

/-- Settles O15: at another OV a command gives the same result with that OV, unless it completes and writes it. -/
theorem overflowFlagWriters : Obligations.OverflowFlagWriters := by
  unfold Obligations.OverflowFlagWriters
  refine ⟨fun i s t b hs h => ⟨fun hkeep => ?_, fun hw ht => ?_⟩, fun _ => rfl⟩
  · have hk : (t.fault || !i.writesOV) = true := by obtain hi | ht := hkeep <;> simp [*]
    have hx := exec_setOV b hs h
    rw [hk] at hx
    exact ⟨exec_ov hs h hk, hx⟩
  · have hx := exec_setOV b hs h
    rwa [hw, ht] at hx

/-- Settles O16, as O15 with NIL for OV. -/
theorem absentResultFlagWriters : Obligations.AbsentResultFlagWriters := by
  unfold Obligations.AbsentResultFlagWriters
  refine ⟨fun i s t b hs h => ⟨fun hkeep => ?_, fun hw ht => ?_⟩, fun _ => rfl⟩
  · have hk : (t.fault || !i.writesNIL) = true := by obtain hi | ht := hkeep <;> simp [*]
    have hx := exec_setNIL b hs h
    rw [hk] at hx
    exact ⟨exec_nil hs h hk, hx⟩
  · have hx := exec_setNIL b hs h
    rwa [hw, ht] at hx

/-- Settles O17: the staging state is what such a command borrows from any other state and gives back. -/
theorem stagingStateIsInvisibleToOtherCommands : Obligations.StagingStateIsInvisibleToOtherCommands := by
  unfold Obligations.StagingStateIsInvisibleToOtherCommands
  intro i s t op rd ts ss buf hs hi h
  exact ⟨exec_staging hs hi h, exec_setStaging op rd ts ss buf hs hi h⟩

/-! ## The invariant -/

theorem Keeps.inv {s t : State} (h : Keeps s t) (hs : s.Inv) : t.Inv := by
  obtain ⟨hwf, hfault, hseq⟩ := hs
  refine ⟨h.wf hwf, ?_, h.seq hseq⟩
  rw [State.FaultCoherent, h.fault, h.cause, h.fcmd]
  exact hfault

theorem inv_resetOf (c : Config) : (State.resetOf c).Inv :=
  ⟨wf_resetOf c, ⟨fun _ => ⟨rfl, rfl⟩, nofun⟩, fun _ => ⟨rfl, rfl, rfl, rfl⟩⟩

theorem inv_afterReset (s : State) : s.afterReset.Inv := inv_resetOf s.cfg

theorem code_ne_zero (k : Cause) : k.code ≠ 0 := by cases k <;> decide

theorem code_toNat_le (k : Cause) : k.code.toNat ≤ 7 := by cases k <;> decide

theorem code_eq_one_iff (k : Cause) : k.code = 1 ↔ k = .illegalCmd := by cases k <;> decide

theorem isIllegal_of_decode_ok {c : CmdWord} {i : Instr} (h : decode c = .ok i) : isIllegal c = false := by
  simp [isIllegal, h]

theorem isIllegal_of_decode_error {c : CmdWord} {e : DecodeError} (h : decode c = .error e) : isIllegal c = true := by
  simp [isIllegal, h]

/-- A fault keeps the invariant when its cause is ILLEGAL_CMD exactly for an illegal word (R401, R402). -/
theorem inv_enterFault {s : State} {k : Cause} {c : CmdWord} (hs : s.Inv) (hk : k = .illegalCmd ↔ isIllegal c = true) :
    (enterFault k c s).Inv := by
  obtain ⟨hwf, -, hseq⟩ := hs
  exact ⟨hwf, ⟨nofun, fun _ => ⟨code_ne_zero k, code_toNat_le k, (code_eq_one_iff k).trans hk⟩⟩, hseq⟩

/-- A decoded command keeps the invariant: its word is legal and it has no ILLEGAL_CMD to raise. -/
theorem inv_exec {c : CmdWord} {i : Instr} {s t : State} (hd : decode c = .ok i) (hs : s.Inv)
    (h : exec i s = .next t) : t.Inv := by
  obtain ⟨t', ht, -, hk⟩ | ⟨k, ht, -, hk⟩ := exec_cases i s s
  · obtain rfl : t' = t := by simpa [ht] using h
    exact hk.inv hs
  · obtain rfl : enterFault k (encode i) s = t := by simpa [ht] using h
    refine inv_enterFault hs ?_
    rw [encode_of_decode hd, isIllegal_of_decode_ok hd]
    exact ⟨fun e => by simpa [wellFormed_of_decode hd] using hk e, nofun⟩

theorem inv_writeCmd {c : CmdWord} {s t : State} (hs : s.Inv) (h : writeCmd c s = .next t) : t.Inv := by
  cases hf : s.fault with
  | true =>
    obtain rfl : s = t := by simpa [writeCmd_faulted hf] using h
    exact hs
  | false =>
    rw [writeCmd_running hf] at h
    cases hd : decode c with
    | ok i => exact inv_exec hd hs (by simpa [hd] using h)
    | error e =>
      obtain rfl : enterFault .illegalCmd c s = t := by simpa [hd] using h
      exact inv_enterFault hs (by simp [isIllegal_of_decode_error hd])

/-! ## The host's accesses -/

theorem replyData_of_valid {s : State} {w : Word} (h : s.data = some w) : replyData s = s.reply (.w64 w) := by
  simp [replyData, h]

theorem replyData_of_invalid {s : State} (h : s.data = none) :
    replyData s = { s with hostOut := .w64 (Config.freeData s.draws) :: s.hostOut, draws := s.draws + 1 } := by
  simp [replyData, h]

theorem replyData_frame (s : State) :
    replyData s = { s with hostOut := (replyData s).hostOut, draws := (replyData s).draws } := by
  obtain h | ⟨w, h⟩ := Option.eq_none_or_eq_some s.data
  · rw [replyData_of_invalid h]
  · rw [replyData_of_valid h]
    rfl

theorem writeData_running {w : Word} {s : State} (h : s.fault = false) : writeData w s = s.setData w := by
  simp [writeData, h]

theorem window32_eq_cmd_iff {offset : Nat} : window32 offset = some .cmd ↔ offset = 0x00 := by
  unfold window32
  split_ifs <;> simp_all

/-- A host read changes nothing of the block (R59). -/
theorem hostRead_frame {offset : Nat} {width : AccessWidth} {s t : State} (h : hostRead offset width s = .next t) :
    t = { s with hostOut := t.hostOut, draws := t.draws } := by
  cases width with
  | w32 =>
    simp only [hostRead] at h
    split at h
    case h_5 => cases h
    all_goals
      obtain rfl := Host.Outcome.next.inj h
      rfl
  | w64 =>
    simp only [hostRead] at h
    split at h
    · obtain rfl := Host.Outcome.next.inj h
      exact replyData_frame s
    · cases h
  | other bits => cases h

/-- What a host write that is not refused can be: a command word, a word for DATA, or an ignored write (R56). -/
theorem hostWrite_cases {offset : Nat} {value : BusWord} {s t : State} (h : hostWrite offset value s = .next t) :
    (∃ c, offset = 0x00 ∧ value = .w32 c ∧ writeCmd c s = .next t) ∨
      (∃ w, offset = 0x08 ∧ value = .w64 w ∧ t = writeData w s) ∨ t = s := by
  cases value with
  | w32 c =>
    simp only [hostWrite] at h
    split at h
    case h_1 hw => exact .inl ⟨c, window32_eq_cmd_iff.1 hw, rfl, h⟩
    case h_5 => cases h
    all_goals exact .inr (.inr (Host.Outcome.next.inj h).symm)
  | w64 w =>
    simp only [hostWrite] at h
    split at h
    next ho => exact .inr (.inl ⟨w, ho, rfl, (Host.Outcome.next.inj h).symm⟩)
    next => cases h
  | other bits v => cases h

/-! ## Every step keeps the invariant -/

theorem inv_writeData {s : State} (w : Word) (hs : s.Inv) : (writeData w s).Inv := by
  unfold writeData
  split <;> exact hs

theorem inv_hostEvent {e : HostEvent} {s t : State} (hs : s.Inv) (h : hostEvent e s = .next t) : t.Inv := by
  cases e with
  | read offset width =>
    rw [hostRead_frame h]
    exact hs
  | write offset value =>
    obtain ⟨c, -, -, hc⟩ | ⟨w, -, -, rfl⟩ | rfl := hostWrite_cases h
    · exact inv_writeCmd hs hc
    · exact inv_writeData w hs
    · exact hs
  | reset m =>
    cases m with
    | idle | commandRunning =>
      obtain rfl := Host.Outcome.next.inj h
      exact inv_afterReset s
    | accessOutstanding => cases h

/-- Settles O19, by the kind of the host event that the step serves. -/
theorem everyStepKeepsTheInvariant : Obligations.EveryStepKeepsTheInvariant := by
  unfold Obligations.EveryStepKeepsTheInvariant
  intro s t hs h
  cases hin : s.hostIn with
  | nil =>
    obtain rfl : s = t := by simpa [step_idle hin] using h
    exact hs
  | cons e rest =>
    rw [step_cons hin] at h
    exact inv_hostEvent (s := { s with hostIn := rest }) hs h

/-- Settles O20. -/
theorem theInvariantHoldsAfterReset : Obligations.TheInvariantHoldsAfterReset := ⟨inv_resetOf _, inv_resetOf⟩

/-! ## The register window and STATUS -/

/-- Settles O23: each clause serves the one event that it names. -/
theorem windowAccesses : Obligations.WindowAccesses := by
  unfold Obligations.WindowAccesses
  intro s rest
  refine ⟨step_idle, fun o ho h => ?_, fun h => step_cons h, fun h => step_cons h, fun w hw h => ?_, fun hw h => ?_,
    fun o v ho h => ?_, fun w hf h => ?_⟩
  · rw [step_cons h]
    fin_cases ho <;> rfl
  · rw [step_cons h]
    exact congrArg Host.Outcome.next (replyData_of_valid hw)
  · rw [step_cons h]
    exact ⟨_, congrArg Host.Outcome.next (replyData_of_invalid hw)⟩
  · rw [step_cons h]
    fin_cases ho <;> rfl
  · rw [step_cons h]
    exact congrArg Host.Outcome.next (writeData_running hf)

theorem status_toNat (s : State) : s.status.toNat =
    s.cause.toNat * 2 ^ 4 + s.seqOpen.toNat * 2 ^ 3 + s.fault.toNat * 2 ^ 2 + s.nil.toNat * 2 + s.ov.toNat := by
  have h : ((0#24) ++ s.cause ++ BitVec.ofBool s.seqOpen ++ BitVec.ofBool s.fault ++ BitVec.ofBool s.nil ++
      BitVec.ofBool s.ov).toNat = s.cause.toNat * 2 ^ 4 + s.seqOpen.toNat * 2 ^ 3 + s.fault.toNat * 2 ^ 2 +
        s.nil.toNat * 2 + s.ov.toNat := by
    simp only [toNat_append_eq, BitVec.toNat_ofBool, BitVec.toNat_ofNat]
    ring
  exact h

/-- The flags of STATUS, in the bits that R26 gives them. -/
theorem status_bits (s : State) : s.status.getLsbD 0 = s.ov ∧ s.status.getLsbD 1 = s.nil ∧
    s.status.getLsbD 2 = s.fault ∧ s.status.getLsbD 3 = s.seqOpen := by
  have hov := s.ov.toNat_lt
  have hnil := s.nil.toNat_lt
  have hfault := s.fault.toNat_lt
  have hseq := s.seqOpen.toNat_lt
  simp only [getLsbD_iff, status_toNat]
  refine ⟨?_, ?_, ?_, ?_⟩
  · cases s.ov <;> simp <;> omega
  · cases s.nil <;> simp <;> omega
  · cases s.fault <;> simp <;> omega
  · cases s.seqOpen <;> simp <;> omega

/-- CAUSE in bits 7:4 and zeros in bits 31:8 (R26). -/
theorem status_fields (s : State) : s.status.extractLsb' 4 4 = s.cause ∧ s.status.extractLsb' 8 24 = 0 := by
  have hov := s.ov.toNat_lt
  have hnil := s.nil.toNat_lt
  have hfault := s.fault.toNat_lt
  have hseq := s.seqOpen.toNat_lt
  have hcause := s.cause.isLt
  constructor <;> apply BitVec.eq_of_toNat_eq <;> rw [extract_toNat, status_toNat]
  · omega
  · simp only [BitVec.ofNat_eq_ofNat, BitVec.toNat_ofNat]
    omega

/-- Settles O24: the fields are read off the number that STATUS makes. -/
theorem statusFields : Obligations.StatusFields := by
  unfold Obligations.StatusFields
  refine ⟨fun s => ?_, fun s v rest h => step_cons h, fun s rest h => step_cons h, fun c => ?_⟩
  · obtain ⟨h0, h1, h2, h3⟩ := status_bits s
    exact ⟨h0, h1, h2, h3, status_fields s⟩
  · apply BitVec.eq_of_toNat_eq
    rw [status_toNat]
    rfl

end Sys2Proof.Machine

namespace Sys2Proof.Machine

/-! ## Commands always end -/

/-- Settles O8: every command is the shared shape of R403 around a body, and that shape answers a next state. -/
theorem everyCommandAnswersANextState : Obligations.EveryCommandAnswersANextState := by
  unfold Obligations.EveryCommandAnswersANextState
  intro i s
  obtain ⟨x, -, hx, -⟩ := exec_alike i s s
  rw [hx]
  exact command_answers_next i s x

/-! ## Outcomes in sequence -/

/-- What follows an outcome: `f` from a next state; a stop or a refusal stays. -/
def andThen (o : Host.Outcome State Fault Refusal) (f : State → Host.Outcome State Fault Refusal) :
    Host.Outcome State Fault Refusal :=
  match o with
  | .next t => f t
  | .fault r => .fault r
  | .refused r => .refused r

/-- An outcome with its next state replaced by `f` of it. -/
def mapNext (f : State → State) (o : Host.Outcome State Fault Refusal) : Host.Outcome State Fault Refusal :=
  andThen o fun t => .next (f t)

@[simp] theorem andThen_next (t : State) (f : State → Host.Outcome State Fault Refusal) :
    andThen (.next t) f = f t := rfl

theorem andThen_assoc (o : Host.Outcome State Fault Refusal) (f g : State → Host.Outcome State Fault Refusal) :
    andThen (andThen o f) g = andThen o fun t => andThen (f t) g := by
  cases o <;> rfl

theorem andThen_mapNext (o : Host.Outcome State Fault Refusal) (f : State → State)
    (g : State → Host.Outcome State Fault Refusal) : andThen (mapNext f o) g = andThen o fun t => g (f t) :=
  andThen_assoc o _ g

/-! ## What no command and no access reads

ENDIAN and the host events still to come (R60, R322): replacing them before a command or an access is replacing them
after it. -/

/-- The state with ENDIAN and the list of host events replaced by functions of themselves. -/
def State.mapOuter (g : Endian → Endian) (h : List HostEvent → List HostEvent) (s : State) : State :=
  { s with cfg := { s.cfg with endian := g s.cfg.endian }, hostIn := h s.hostIn }

section
variable {g : Endian → Endian} {h : List HostEvent → List HostEvent}

theorem writeOptional_mapOuter (s : State) (sg : Sign) (rd : Reg) (v : Int) :
    (s.mapOuter g h).writeOptional sg rd v = (s.writeOptional sg rd v).mapOuter g h := by
  cases hv : rep s.cfg.width sg v with
  | true =>
    have hv' : rep (s.mapOuter g h).cfg.width sg v = true := hv
    rw [State.writeOptional, State.writeOptional, if_pos hv, if_pos hv']
    rfl
  | false =>
    rw [(writeOptional_spec s sg rd v).2 hv, (writeOptional_spec (s.mapOuter g h) sg rd v).2 hv]
    rfl

/-- A body that goes on after a read or a check maps where what it goes on with does. -/
theorem bind_eq_map {α : Type} {x : Except Cause α} {f : State → State} {b c : α → Except Cause State}
    (hbc : ∀ a, c a = (b a).map f) : (x >>= c) = (x >>= b).map f := by
  cases x with
  | ok a => exact hbc a
  | error k => rfl

theorem command_mapOuter {i : Instr} {s : State} {x y : Except Cause State} (hxy : y = x.map (State.mapOuter g h)) :
    command i (s.mapOuter g h) y = mapNext (State.mapOuter g h) (command i s x) := by
  subst hxy
  cases x <;> rfl

theorem shiftBody_mapOuter {s : State} {rd ra : Reg} {dist : Except Cause Int} {guard : Int → Except Cause Unit}
    {f : BitVec s.cfg.width → Int → BitVec s.cfg.width} :
    shiftBody (s.mapOuter g h) rd ra dist guard f = (shiftBody s rd ra dist guard f).map (State.mapOuter g h) :=
  bind_eq_map fun _ => bind_eq_map fun _ => bind_eq_map fun _ => rfl

theorem bitBody_mapOuter {s : State} {rd ra : Reg} {index : Except Cause Int}
    {f : BitVec s.cfg.width → Nat × Nat → BitVec s.cfg.width} :
    bitBody (s.mapOuter g h) rd ra index f = (bitBody s rd ra index f).map (State.mapOuter g h) :=
  bind_eq_map fun _ => bind_eq_map fun _ => bind_eq_map fun _ => rfl

/-- A command neither reads nor writes ENDIAN and the host's events: its reads and checks come out the same, and its
writes leave both alone. -/
theorem exec_mapOuter (i : Instr) (s : State) :
    exec i (s.mapOuter g h) = mapNext (State.mapOuter g h) (exec i s) := by
  cases i with
  | seqb => rfl
  | seqe => exact command_mapOuter (bind_eq_map fun _ =>
      congrArg (fun t => Except.ok (State.closeSeq t)) (writeOptional_mapOuter ..))
  | fromwe => exact command_mapOuter (bind_eq_map fun _ => congrArg Except.ok (writeOptional_mapOuter ..))
  | fromwt | fromwc | not | neg | mag => exact command_mapOuter (bind_eq_map fun _ => rfl)
  | wrw | rdw | seqw | add | sub | addd | subd | mul | muld =>
    exact command_mapOuter (bind_eq_map fun _ => bind_eq_map fun _ => rfl)
  | mulfw | mulfwd | div =>
    exact command_mapOuter (bind_eq_map fun _ => bind_eq_map fun _ => bind_eq_map fun _ => rfl)
  | divd =>
    exact command_mapOuter
      (bind_eq_map fun _ => bind_eq_map fun _ => bind_eq_map fun _ => bind_eq_map fun _ => rfl)
  | divfw =>
    exact command_mapOuter
      (bind_eq_map fun _ => bind_eq_map fun _ => bind_eq_map fun _ => bind_eq_map fun _ => by split <;> rfl)
  | shl | shli | shr | shri | shlm | shlmi | shrm | shrmi | shlw | shlwi | shrw | shrwi | rol | roli | ror | rori =>
    exact command_mapOuter shiftBody_mapOuter
  | bget | bgeti | bset | bseti | bclr | bclri | btgl | btgli => exact command_mapOuter bitBody_mapOuter

theorem writeCmd_mapOuter (c : CmdWord) (s : State) :
    writeCmd c (s.mapOuter g h) = mapNext (State.mapOuter g h) (writeCmd c s) := by
  cases hf : s.fault with
  | true =>
    rw [writeCmd_faulted hf, writeCmd_faulted (s := s.mapOuter g h) hf]
    rfl
  | false =>
    rw [writeCmd_running hf, writeCmd_running (s := s.mapOuter g h) hf]
    cases decode c with
    | ok i => exact exec_mapOuter i s
    | error e => rfl

theorem writeData_mapOuter (w : Word) (s : State) :
    writeData w (s.mapOuter g h) = (writeData w s).mapOuter g h := by
  cases hf : s.fault with
  | true => simp [writeData, State.mapOuter, hf]
  | false =>
    rw [writeData_running hf, writeData_running (s := s.mapOuter g h) hf]
    rfl

theorem replyData_mapOuter (s : State) : replyData (s.mapOuter g h) = (replyData s).mapOuter g h := by
  obtain hd | ⟨w, hd⟩ := Option.eq_none_or_eq_some s.data
  · rw [replyData_of_invalid hd, replyData_of_invalid (s := s.mapOuter g h) hd]
    rfl
  · rw [replyData_of_valid hd, replyData_of_valid (s := s.mapOuter g h) hd]
    rfl

theorem hostWrite_mapOuter (offset : Nat) (value : BusWord) (s : State) :
    hostWrite offset value (s.mapOuter g h) = mapNext (State.mapOuter g h) (hostWrite offset value s) := by
  cases value with
  | w32 c =>
    simp only [hostWrite]
    split
    case h_1 => exact writeCmd_mapOuter c s
    all_goals rfl
  | w64 w =>
    simp only [hostWrite]
    split
    · exact congrArg Host.Outcome.next (writeData_mapOuter w s)
    · rfl
  | other bits v => rfl

theorem hostRead_mapOuter (offset : Nat) (width : AccessWidth) (s : State) :
    hostRead offset width (s.mapOuter g h) = mapNext (State.mapOuter g h) (hostRead offset width s) := by
  cases width with
  | w32 =>
    simp only [hostRead]
    split <;> rfl
  | w64 =>
    simp only [hostRead]
    split
    · exact congrArg Host.Outcome.next (replyData_mapOuter s)
    · rfl
  | other bits => rfl

/-- No host event reads ENDIAN or the events after it. -/
theorem hostEvent_mapOuter (e : HostEvent) (s : State) :
    hostEvent e (s.mapOuter g h) = mapNext (State.mapOuter g h) (hostEvent e s) := by
  cases e with
  | read offset width => exact hostRead_mapOuter offset width s
  | write offset value => exact hostWrite_mapOuter offset value s
  | reset m => cases m <;> rfl

end

/-! ## Runs -/

/-- A host event with another list of events after it. -/
theorem hostEvent_setHostIn (e : HostEvent) (s : State) (es : List HostEvent) :
    hostEvent e { s with hostIn := es } = mapNext (fun t => { t with hostIn := es }) (hostEvent e s) :=
  hostEvent_mapOuter (g := id) (h := fun _ => es) e s

/-- `k` steps of the machine, as the host's interface runs them. -/
def runSteps (k : Nat) (s : State) : Host.Outcome State Fault Refusal := Host.Core.run Sys2Proof.core k s

theorem runHost_eq_runSteps (s : State) (es : List HostEvent) :
    runHost s es = runSteps es.length { s with hostIn := es } := rfl

theorem runSteps_succ (k : Nat) (s : State) : runSteps (k + 1) s = andThen (step s) (runSteps k) := by
  have hstep : step s = Sys2Proof.core.step s := rfl
  simp only [hstep, runSteps, Host.Core.run]
  cases Sys2Proof.core.step s <;> rfl

/-- A run of a first event and others serves the first and runs the others from the state that it leaves (R60). -/
theorem runHost_cons (s : State) (e : HostEvent) (es : List HostEvent) :
    runHost s (e :: es) = andThen (hostEvent e s) fun t => runHost t es := by
  have hstep : step { s with hostIn := e :: es } = mapNext (fun t => { t with hostIn := es }) (hostEvent e s) :=
    (step_cons rfl).trans (hostEvent_setHostIn e s es)
  rw [runHost_eq_runSteps, List.length_cons, runSteps_succ, hstep, andThen_mapNext]
  rfl

/-- A run of two sequences is the second's run after the first's, stops and refusals included (R460). -/
theorem runHost_append (s : State) (es fs : List HostEvent) :
    runHost s (es ++ fs) = andThen (runHost s es) fun t => runHost t fs := by
  induction es generalizing s with
  | nil => rfl
  | cons e es ih => simp only [List.cons_append, runHost_cons, andThen_assoc, ih]

/-- Settles O25. -/
theorem runsAreSequential : Obligations.RunsAreSequential := by
  unfold Obligations.RunsAreSequential
  intro s t es fs h
  rw [runHost_append, h, andThen_next]

/-! ## CMD writes and refused accesses -/

/-- Settles O6: the step serves the CMD write (R56), which while FAULT = 0 runs the command that its word decodes to. -/
theorem stepRunsTheDecodedCommand : Obligations.StepRunsTheDecodedCommand := by
  unfold Obligations.StepRunsTheDecodedCommand
  intro s c rest i hin hf hd
  have hwrite : step s = writeCmd c { s with hostIn := rest } := step_cons hin
  rw [hwrite, writeCmd_running (s := { s with hostIn := rest }) hf, hd]

/-- The offsets at which the window has no 32-bit word (R53, R54). -/
theorem window32_eq_none {offset : Nat} (h : offset ∉ [0x00, 0x04, 0x10, 0x14, 0x18, 0x1C]) :
    window32 offset = none := by
  simp only [List.mem_cons, List.not_mem_nil, or_false, not_or] at h
  simp [window32, h]

/-- Settles O22, by the width of the access: one of 32 bits finds no window word, one of 64 bits is not at DATA, and
any other width and a reset during an access have no meaning at all (R54, R452). -/
theorem unsupportedAccessesAreRefused : Obligations.UnsupportedAccessesAreRefused := by
  unfold Obligations.UnsupportedAccessesAreRefused
  intro s rest
  refine ⟨fun o v hin ho => ?_, fun o hin ho => ?_, fun o v hin ho => ?_, fun o hin ho => ?_, fun o b v hin => ?_,
    fun o b hin => ?_, fun hin => ?_⟩ <;> rw [step_cons hin]
  · simp [hostEvent, hostWrite, window32_eq_none ho]
  · simp [hostEvent, hostRead, window32_eq_none ho]
  · exact if_neg ho
  · exact if_neg ho
  · rfl
  · rfl
  · rfl

end Sys2Proof.Machine

/-! ## Encoding: a word and the one row of R79 that it selects

A word that a row's fields make selects that row and passes its checks (`Row.accept_word`), no other row is selected
(`eq_of_selects`), and every command is built by some row from its own word's fields (`exists_row_build`). So decoding
undoes encoding. The table of R86 says the same of each row as a mask (`selects_tableRow_iff`). -/

namespace Sys2Proof

/-! ### The checks of a row -/

/-- A row accepts the fields that pass its checks, and gives the command that they stand for (R82). -/
theorem Row.accept_iff (r : Row) (f : Fields) : r.accept f = .ok (r.build f) ↔
    (r.sAny && f.s) = f.s ∧ r.unusedZero f = true ∧ (!r.usesRE || f.rd != f.re) = true := by
  constructor
  · intro h
    obtain ⟨hS, hz, hne, -⟩ := Row.accept_eq_ok h
    refine ⟨hS, hz, ?_⟩
    cases hre : r.usesRE with
    | false => rfl
    | true => simpa using hne hre
  · rintro ⟨hS, hz, hne⟩
    have hS' : (f.s && !r.sAny) = false := by
      rw [← hS]
      cases r.sAny <;> simp
    have hne' : (r.usesRE && f.rd == f.re) = false := by
      cases hre : r.usesRE with
      | false => rfl
      | true => simpa [hre] using hne
    simp [Row.accept, hS', hz, hne']

/-- A word that a row's fields make selects the row. -/
theorem Row.selects_word (r : Row) (f : Fields) : r.selects (fieldsOf (r.word f)) = true := by
  cases hf : r.format <;> cases hx : r.x <;> simp [Row.word, Row.selects, hf, hx, fieldsOf_wordR, fieldsOf_wordI]

/-- S is 0 in a word of a row whose S must be 0. -/
theorem Row.sAny_word (r : Row) (f : Fields) :
    (r.sAny && (fieldsOf (r.word f)).s) = (fieldsOf (r.word f)).s := by
  cases hf : r.format <;> simp [Row.word, hf, fieldsOf_wordR, fieldsOf_wordI]

theorem or_fieldIf_eq_zero (used : Bool) (r : Reg) : (used || fieldIf used r == 0) = true := by
  cases used <;> simp [fieldIf]

/-- The fields that a row does not use are 0 in its words. -/
theorem Row.unusedZero_word (r : Row) (f : Fields) : r.unusedZero (fieldsOf (r.word f)) = true := by
  cases hf : r.format with
  | r => simp only [Row.unusedZero, Row.word, hf, fieldsOf_wordR, or_fieldIf_eq_zero]; rfl
  | i => simp only [Row.unusedZero, Row.word, hf, fieldsOf_wordI, or_fieldIf_eq_zero]; simp

/-- A row's command does not depend on the fields that the row's words drop (R79). -/
theorem build_word : ∀ r ∈ rows, ∀ f, r.build (fieldsOf (r.word f)) = r.build f := by
  simp [rows, arithRows, shiftRows, Row.dab, Row.dai, Row.da, Row.dest, Row.deab, Row.word, fieldsOf_wordR,
    fieldsOf_wordI, fieldIf, Fields.sg, Fields.xg]

/-- A row accepts its word of a well-formed command and gives the command back. -/
theorem Row.accept_word {r : Row} (hr : r ∈ rows) {f : Fields} (hw : (r.build f).wellFormed = true) :
    r.accept (fieldsOf (r.word f)) = .ok (r.build f) := by
  rw [← build_word r hr f] at hw ⊢
  rw [wellFormed_build r hr] at hw
  exact (r.accept_iff _).2 ⟨r.sAny_word f, r.unusedZero_word f, hw⟩

/-! ### One row for each word -/

/-- Some fields select both rows: the same OP, and no X that tells them apart (R78). -/
def Row.overlaps (r r' : Row) : Bool := r.op == r'.op && (r.x == none || r'.x == none || r.x == r'.x)

theorem Row.overlaps_of_selects {r r' : Row} {f : Fields} (h : r.selects f = true) (h' : r'.selects f = true) :
    r.overlaps r' = true := by
  simp only [Row.selects, Bool.and_eq_true, Bool.or_eq_true, beq_iff_eq] at h h'
  obtain ⟨hop, hx⟩ := h
  obtain ⟨hop', hx'⟩ := h'
  obtain hx | hx := hx <;> obtain hx' | hx' := hx' <;> simp [Row.overlaps, hop, hop', hx, hx']

theorem Row.overlaps_comm (r r' : Row) : r.overlaps r' = r'.overlaps r := by
  rw [Row.overlaps, Row.overlaps, Bool.beq_comm (a := r.op), Bool.beq_comm (a := r.x) (b := r'.x),
    Bool.or_comm (r.x == none)]

/-- No two rows of R79 share an OP and an X (R78). -/
theorem rows_pairwise : rows.Pairwise fun r r' => r.overlaps r' = false := by decide

/-- Fields select at most one row. -/
theorem eq_of_selects {r r' : Row} (hr : r ∈ rows) (hr' : r' ∈ rows) {f : Fields} (h : r.selects f = true)
    (h' : r'.selects f = true) : r = r' := by
  have : Std.Symm fun r r' : Row => r.overlaps r' = false := ⟨fun a b hab => (b.overlaps_comm a).trans hab⟩
  by_contra hne
  have hsep := rows_pairwise.forall hr hr' hne
  simp [Row.overlaps_of_selects h h'] at hsep

/-- The converse of `decode_eq_ok`: a word decodes to what a row that it selects accepts (R82). -/
theorem decode_of_row {r : Row} (hr : r ∈ rows) {c : CmdWord} {i : Instr} (hs : r.selects (fieldsOf c) = true)
    (ha : r.accept (fieldsOf c) = .ok i) : decode c = .ok i := by
  unfold decode
  split
  next r' hfind =>
    have hs' : r'.selects (fieldsOf c) = true := by simpa using List.find?_some hfind
    rwa [eq_of_selects (List.mem_of_find?_eq_some hfind) hr hs' hs]
  next hfind => exact absurd hs (by simpa using List.find?_eq_none.1 hfind r hr)

/-! ### Decoding the word of a command -/

/-- Every command is built by some row of R79 from the fields of its own word. -/
theorem exists_row_build (i : Instr) : ∃ r ∈ rows, r.build (fieldsOf (encode i)) = i := by
  simp only [rows, arithRows, shiftRows, Row.dab, Row.dai, Row.da, Row.dest, Row.deab, List.cons_append,
    List.nil_append, List.mem_cons, List.not_mem_nil, or_false, exists_eq_or_imp, exists_eq_left, Fields.sg, Fields.xg]
  cases i <;> simp only [encode, fieldsOf_wordR, fieldsOf_wordI, ofBit_bit, reduceCtorEq, false_or, true_or, or_true]

/-- The decoder gives back every well-formed command that the encoder writes (R71, R72, R79, R82). -/
theorem decode_encode {i : Instr} (hw : i.wellFormed = true) : decode (encode i) = .ok i := by
  obtain ⟨r, hr, hi⟩ := exists_row_build i
  have hword : encode i = r.word (fieldsOf (encode i)) := by
    rw [← encode_build r hr, hi]
  have ha := Row.accept_word hr (f := fieldsOf (encode i)) (by rwa [hi])
  have hs := r.selects_word (fieldsOf (encode i))
  rw [← hword] at ha hs
  rw [decode_of_row hr hs ha, hi]

/-- Settles O1: the word of a command selects, of all rows, the one that builds the command. -/
theorem decodeOfEncode : Obligations.DecodeOfEncode := fun _ hw => decode_encode hw

/-- Settles O2, by the row that the word selects (`encode_build`, `wellFormed_build`). -/
theorem encodeOfDecode : Obligations.EncodeOfDecode := fun _ _ h => ⟨encode_of_decode h, wellFormed_of_decode h⟩

/-- A word written out from its bits decodes to the well-formed command that it encodes. -/
theorem decode_of_encode_eq {c : CmdWord} {i : Instr} (h : encode i = c) (hw : i.wellFormed = true) :
    decode c = .ok i := h ▸ decode_encode hw

/-- Settles O3: each of the ten words is the word of the command beside it. -/
theorem decodesTheExampleWords : Obligations.DecodesTheExampleWords := by
  unfold Obligations.DecodesTheExampleWords
  refine ⟨?_, ?_, ?_, ?_, ?_, ?_, ?_, ?_, ?_, ?_⟩ <;> exact decode_of_encode_eq (by decide) (by decide)

/-! ### The masks of the opcode table -/

/-- All ones in a field that the mask fixes, 0 in a field that it leaves free (R86). -/
def maskIf {n : Nat} (fixed : Bool) : BitVec n := bif fixed then BitVec.allOnes n else 0#n

theorem and_maskIf_eq_zero_iff {n : Nat} (free : Bool) (x : BitVec n) :
    x &&& maskIf (!free) = 0#n ↔ free = true ∨ x = 0#n := by
  cases free <;> simp [maskIf]

/-- The fields of a row's mask: OP, S where it must be 0, X where it is fixed, and the unused fields (R86). -/
def Row.maskFields (r : Row) : Fields :=
  let rb : Reg := maskIf (!(r.format == .i || r.usesRB))
  let rc : Reg := maskIf (!(r.format == .i || r.usesRC))
  let z : BitVec 9 := maskIf (!(r.format == .i))
  { op := BitVec.allOnes 6, s := !r.sAny, x := r.x.isSome, rd := maskIf (!r.usesRD), re := maskIf (!r.usesRE),
    ra := maskIf (!r.usesRA), rb := rb, rc := rc, z := z, imm := rb ++ rc ++ z }

/-- The fields of a row's match: its OP, its X where it has one, and 0 elsewhere (R86). -/
def Row.matchFields (r : Row) : Fields :=
  { op := r.op, s := false, x := r.x.getD false, rd := 0#3, re := 0#3, ra := 0#3, rb := 0#3, rc := 0#3, z := 0#9,
    imm := 0#15 }

/-- A masked word has a pattern when its fields do, field by field (R71). -/
theorem and_eq_iff_fields (c m p : CmdWord) : c &&& m = p ↔
    (fieldsOf c).op &&& (fieldsOf m).op = (fieldsOf p).op ∧ ((fieldsOf c).s && (fieldsOf m).s) = (fieldsOf p).s ∧
    ((fieldsOf c).x && (fieldsOf m).x) = (fieldsOf p).x ∧ (fieldsOf c).rd &&& (fieldsOf m).rd = (fieldsOf p).rd ∧
    (fieldsOf c).re &&& (fieldsOf m).re = (fieldsOf p).re ∧ (fieldsOf c).ra &&& (fieldsOf m).ra = (fieldsOf p).ra ∧
    (fieldsOf c).rb &&& (fieldsOf m).rb = (fieldsOf p).rb ∧ (fieldsOf c).rc &&& (fieldsOf m).rc = (fieldsOf p).rc ∧
    (fieldsOf c).z &&& (fieldsOf m).z = (fieldsOf p).z := by
  constructor
  · rintro rfl
    simp only [fieldsOf, BitVec.extractLsb'_and, BitVec.getLsbD_and, and_self]
  · rintro ⟨hop, hs, hx, hrd, hre, hra, hrb, hrc, hz⟩
    apply Laws.SelectsItsRow.word_ext <;> simp only [fieldsOf, BitVec.extractLsb'_and, BitVec.getLsbD_and] <;>
      assumption

/-- A row is selected when OP is its own and X is, under the mask, what the row fixes (R82, R86). -/
theorem Row.selects_iff_mask (r : Row) (f : Fields) :
    r.selects f = true ↔ f.op = r.op ∧ (f.x && r.x.isSome) = r.x.getD false := by
  cases hx : r.x <;> simp [Row.selects, hx, eq_comm (a := f.op), eq_comm (a := f.x)]

/-- The fields that R79 marks 0 are 0 exactly when they are 0 under the mask (R82, R86). -/
theorem Row.unusedZero_iff_mask (r : Row) (f : Fields) : r.unusedZero f = true ↔
    f.rd &&& r.maskFields.rd = 0#3 ∧ f.re &&& r.maskFields.re = 0#3 ∧ f.ra &&& r.maskFields.ra = 0#3 ∧
    f.rb &&& r.maskFields.rb = 0#3 ∧ f.rc &&& r.maskFields.rc = 0#3 ∧ f.z &&& r.maskFields.z = 0#9 := by
  simp only [Row.maskFields, and_maskIf_eq_zero_iff]
  cases hf : r.format <;> simp [Row.unusedZero, hf, and_assoc]

/-- A word has the row's match under the row's mask exactly when it selects the row, with S and the unused fields as
they must be (R86, R82). -/
theorem and_mask_eq_match_iff {r : Row} {c m p : CmdWord} (hm : fieldsOf m = r.maskFields)
    (hp : fieldsOf p = r.matchFields) : c &&& m = p ↔
      r.selects (fieldsOf c) = true ∧ (r.sAny && (fieldsOf c).s) = (fieldsOf c).s ∧
        r.unusedZero (fieldsOf c) = true := by
  have hop : (fieldsOf c).op &&& r.maskFields.op = (fieldsOf c).op := BitVec.and_allOnes
  have hs : ((fieldsOf c).s && !r.sAny) = false ↔ (r.sAny && (fieldsOf c).s) = (fieldsOf c).s := by
    cases r.sAny <;> simp
  rw [and_eq_iff_fields, hm, hp, hop, Row.selects_iff_mask, Row.unusedZero_iff_mask, ← hs]
  simp only [Row.matchFields]
  tauto

/-- The row of the opcode table does not depend on the fields of the command (R86). -/
theorem tableRow_build_congr : ∀ r ∈ rows, ∀ f g, tableRow (r.build f) = tableRow (r.build g) := by
  simp [rows, arithRows, shiftRows, Row.dab, Row.dai, Row.da, Row.dest, Row.deab, tableRow]

/-- The opcode table gives every row of R79 the mask and the match of that row (R79, R86). -/
theorem tableRow_build_zero : ∀ r ∈ rows, fieldsOf (tableRow (r.build (fieldsOf 0))).mask = r.maskFields ∧
    fieldsOf (tableRow (r.build (fieldsOf 0))).pattern = r.matchFields ∧
    (tableRow (r.build (fieldsOf 0))).rdNeRe = r.usesRE := by decide

/-- A word selects the table row of a row of R79 exactly when it selects that row and the row accepts it (R82, R86). -/
theorem selects_tableRow_iff {r : Row} (hr : r ∈ rows) (f : Fields) (c : CmdWord) :
    (tableRow (r.build f)).selects c = true ↔
      r.selects (fieldsOf c) = true ∧ r.accept (fieldsOf c) = .ok (r.build (fieldsOf c)) := by
  obtain ⟨hm, hp, hne⟩ := tableRow_build_zero r hr
  rw [tableRow_build_congr r hr f (fieldsOf 0), TableRow.selects, Bool.and_eq_true, beq_iff_eq,
    and_mask_eq_match_iff hm hp, hne, Row.accept_iff, and_assoc, and_assoc]

/-! ### The opcode table and the decoder -/

theorem build_zero_mem : ∀ r ∈ rows, r.build (fieldsOf 0) ∈ sampleInstrs := by decide

theorem tableRow_mem (i : Instr) : tableRow i ∈ opcodeTable := by
  obtain ⟨r, hr, hi⟩ := exists_row_build i
  rw [← hi, tableRow_build_congr r hr _ (fieldsOf 0)]
  exact List.mem_map_of_mem (build_zero_mem r hr)

/-- A row of the opcode table that a word selects is the row of the command that the word decodes to (R80, R86). -/
theorem decode_of_selects {t : TableRow} (ht : t ∈ opcodeTable) {c : CmdWord} (hs : t.selects c = true) :
    ∃ i, decode c = .ok i ∧ tableRow i = t := by
  obtain ⟨j, -, rfl⟩ := List.mem_map.1 ht
  obtain ⟨r, hr, hj⟩ := exists_row_build j
  rw [← hj] at hs ⊢
  obtain ⟨hsel, hacc⟩ := (selects_tableRow_iff hr _ c).1 hs
  exact ⟨_, decode_of_row hr hsel hacc, tableRow_build_congr r hr _ _⟩

/-- A word that decodes selects the row of its command (R80, R86). -/
theorem tableRow_selects_of_decode {c : CmdWord} {i : Instr} (h : decode c = .ok i) :
    (tableRow i).selects c = true := by
  obtain ⟨r, hr, hsel, hacc⟩ := decode_eq_ok h
  obtain ⟨-, -, -, rfl⟩ := Row.accept_eq_ok hacc
  exact (selects_tableRow_iff hr _ c).2 ⟨hsel, hacc⟩

/-- A word is a command exactly when it selects a row of the opcode table (R80, R86). -/
theorem exists_decode_iff_selects (c : CmdWord) :
    (∃ i, decode c = .ok i) ↔ ∃ t ∈ opcodeTable, t.selects c = true := by
  constructor
  · rintro ⟨i, hi⟩
    exact ⟨tableRow i, tableRow_mem i, tableRow_selects_of_decode hi⟩
  · rintro ⟨t, ht, hs⟩
    obtain ⟨i, hi, -⟩ := decode_of_selects ht hs
    exact ⟨i, hi⟩

/-- Settles O4: two rows that one word selects are both the row of the command that the word decodes to. -/
theorem opcodeTableSelectsTheLegalWords : Obligations.OpcodeTableSelectsTheLegalWords := by
  unfold Obligations.OpcodeTableSelectsTheLegalWords
  refine ⟨rfl, exists_decode_iff_selects, fun c i h => ⟨tableRow_mem i, tableRow_selects_of_decode h⟩, ?_⟩
  intro c t ht t' ht' hs hs'
  obtain ⟨i, hi, rfl⟩ := decode_of_selects ht hs
  obtain ⟨i', hi', rfl⟩ := decode_of_selects ht' hs'
  obtain rfl : i = i' := Except.ok.inj (hi.symm.trans hi')
  rfl

end Sys2Proof

namespace Sys2Proof.Machine

/-- Settles O5: no row is selected, so the word does not decode, and the CMD write takes ILLEGAL_CMD (R402, R411). -/
theorem illegalWordRaisesIllegalCmd : Obligations.IllegalWordRaisesIllegalCmd := by
  unfold Obligations.IllegalWordRaisesIllegalCmd
  intro s c rest hin hf hno
  have hwrite : step s = writeCmd c { s with hostIn := rest } := step_cons hin
  rw [hwrite, writeCmd_running (s := { s with hostIn := rest }) hf]
  cases hd : decode c with
  | ok i =>
    obtain ⟨t, ht, hs⟩ := (exists_decode_iff_selects c).1 ⟨i, hd⟩
    simp [hno t ht] at hs
  | error e => rfl

end Sys2Proof.Machine

/-! ## Construction from words

SEQB, SEQW and SEQE (R100 to R104), the commands that take one word (R105 to R107), and the round trip of R108. -/

namespace Sys2Proof.Machine

/-! ### Integers in range -/

/-- The reading of a pattern is in the range of its width (R12). -/
theorem rep_val {N : Nat} (sg : Sign) (x : BitVec N) : rep N sg (val sg x) = true := by
  rw [rep_iff]
  cases sg with
  | u =>
    have := x.isLt
    simp only [minS, maxS, val]
    omega
  | s =>
    have hlo := BitVec.le_toInt x
    have hhi := BitVec.toInt_lt (x := x)
    simp only [minS, maxS, val]
    push_cast
    omega

/-- An integer in the range is recovered from its pattern (R12). -/
theorem val_bits {N : Nat} (hN : 0 < N) {sg : Sign} {v : Int} (h : rep N sg v = true) : val sg (bits N v) = v := by
  rw [rep_iff] at h
  obtain ⟨hlo, hhi⟩ := h
  cases sg with
  | u =>
    simp only [minS, maxS] at hlo hhi
    simp only [val, bits, BitVec.toNat_ofInt]
    rw [Int.emod_eq_of_lt hlo (by omega), Int.toNat_of_nonneg hlo]
  | s =>
    simp only [minS, maxS] at hlo hhi
    push_cast at hlo hhi
    exact BitVec.toInt_ofInt_eq_self hN hlo (by omega)

theorem val_injective {N : Nat} (sg : Sign) : Function.Injective (val (N := N) sg) :=
  Function.LeftInverse.injective (g := bits N) (bits_val sg)

/-- Clamping keeps what is in the range (R106). -/
theorem clamp_of_rep {N : Nat} {ts : Sign} {v : Int} (h : rep N ts v = true) : clamp N ts v = v := by
  obtain ⟨hlo, hhi⟩ := rep_iff.1 h
  rw [clamp, max_eq_left hlo, min_eq_left hhi]

/-- A negative value clamps to 0 in an unsigned target (R106). -/
theorem clamp_unsigned_of_neg (N : Nat) {v : Int} (h : v < 0) : clamp N .u v = 0 := by
  have : 0 < 2 ^ N := Nat.two_pow_pos N
  simp only [clamp, minS, maxS]
  omega

/-! ### One word as a value of a register's width -/

theorem width_gt_word (c : Config) : 64 < c.width := by
  have : 0 < 2 ^ c.levels := Nat.two_pow_pos _
  rw [Config.width, Config.words, pow_succ]
  omega

/-- Extending a word writes its value at the larger width (R12). -/
theorem bits_val_word (N : Nat) (ss : Sign) (w : Word) : bits N (val ss w) = extend N ss w := by
  cases ss with
  | u => exact (BitVec.ofInt_natCast ..).trans (BitVec.ofNat_toNat ..)
  | s => rfl

/-- Only the signed reading gives negative values, those of the patterns with top bit 1 (R12). -/
theorem val_neg_iff {N : Nat} (sg : Sign) (x : BitVec N) : val sg x < 0 ↔ sg = .s ∧ x.msb = true := by
  cases sg with
  | u => simp [val]
  | s => simp [val, BitVec.msb_eq_toInt]

theorem val_word_bounds (sg : Sign) (w : Word) : -(2 ^ 63) ≤ val sg w ∧ val sg w < 2 ^ 64 := by
  obtain ⟨hlo, hhi⟩ := rep_iff.1 (rep_val sg w)
  cases sg <;> simp only [minS, maxS] at hlo hhi <;> omega

/-- Of all words and signednesses only a negative source is outside the range of a wider target, and only where the
target is unsigned (R107). -/
theorem rep_val_word {N : Nat} (hN : 64 < N) (ts ss : Sign) (w : Word) :
    rep N ts (val ss w) = true ↔ ¬(ts = .u ∧ ss = .s ∧ w.msb = true) := by
  obtain ⟨hlo, hhi⟩ := val_word_bounds ss w
  have hhalf : 2 ^ 64 ≤ 2 ^ (N - 1) := Nat.pow_le_pow_right (by decide) (by omega)
  have hfull : 2 ^ (N - 1) ≤ 2 ^ N := Nat.pow_le_pow_right (by decide) (by omega)
  rw [rep_iff, ← val_neg_iff]
  generalize val ss w = v at *
  cases ts with
  | u => simp only [minS, maxS, true_and]; omega
  | s => simp only [minS, maxS, reduceCtorEq, false_and, not_false_eq_true, iff_true]; omega

/-! ### The value of a word sequence -/

theorem seqval_nil (ss : Sign) : seqval [] ss = 0 := by cases ss <;> rfl

theorem seqval_unsigned (buf : List Word) : seqval buf .u = (wordsVal buf : Int) := by
  simp only [seqval, val, BitVec.toNat_ofNat, Nat.mod_eq_of_lt (wordsVal_lt buf)]

/-- The top bit of a sequence is the top bit of its last word (R101). -/
theorem msb_wordsVal_append (buf : List Word) (w : Word) :
    (BitVec.ofNat (64 * (buf ++ [w]).length) (wordsVal (buf ++ [w]))).msb = w.msb := by
  have hlow := wordsVal_lt buf
  have hpos : 0 < 2 ^ (64 * buf.length) := Nat.two_pow_pos _
  have htop : 2 ^ (64 * (buf ++ [w]).length - 1) = 2 ^ 63 * 2 ^ (64 * buf.length) := by
    rw [← pow_add, List.length_append, List.length_singleton]
    congr 1
    omega
  have hword : wordsVal (buf ++ [w]) / 2 ^ (64 * buf.length) = w.toNat := by
    rw [wordsVal_append, Nat.add_mul_div_left _ _ hpos, Nat.div_eq_of_lt hlow]
    simp [wordsVal]
  rw [BitVec.msb_eq_decide, BitVec.msb_eq_decide, BitVec.toNat_ofNat, Nat.mod_eq_of_lt (wordsVal_lt _), htop]
  exact decide_eq_decide.2 (by rw [← Nat.le_div_iff_mul_le hpos, hword])

theorem seqval_signed (buf : List Word) (w : Word) : seqval (buf ++ [w]) .s =
    (wordsVal (buf ++ [w]) : Int) - (if w.msb then (2 ^ (64 * (buf.length + 1)) : Nat) else 0) := by
  have hlen : (buf ++ [w]).length = buf.length + 1 := List.length_append
  rw [seqval, val, BitVec.toInt_eq_msb_cond, msb_wordsVal_append, BitVec.toNat_ofNat,
    Nat.mod_eq_of_lt (wordsVal_lt _), hlen]
  cases w.msb with
  | false => exact (Int.sub_zero _).symm
  | true => rfl

/-- The words of a pattern make a sequence whose value is the pattern's, in both readings (R11, R101). -/
theorem seqval_toWords {n : Nat} (sg : Sign) (x : BitVec (64 * n)) : seqval (toWords n x.toNat) sg = val sg x := by
  rw [seqval, toWords_length, wordsVal_toWords, Nat.mod_eq_of_lt x.isLt, BitVec.ofNat_toNat, BitVec.setWidth_eq]

/-- Settles O45: a padding word adds its weight to the sum, and a sign word's weight is what the higher top bit takes
off again. -/
theorem sequenceValue : Obligations.SequenceValue := by
  unfold Obligations.SequenceValue
  refine ⟨seqval_nil, seqval_unsigned, seqval_signed, fun buf => ?_, fun buf w => ?_⟩
  · rw [seqval_unsigned, seqval_unsigned, wordsVal_append]
    simp [wordsVal]
  · have hpow : 2 ^ (64 * ((buf ++ [w]).length + 1)) = 2 ^ 64 * 2 ^ (64 * (buf.length + 1)) := by
      rw [← pow_add, List.length_append, List.length_singleton]
      congr 1
      omega
    have hlen : (buf ++ [w]).length = buf.length + 1 := List.length_append
    rw [seqval_signed, seqval_signed, wordsVal_append (buf ++ [w]), hpow, hlen]
    generalize 2 ^ (64 * (buf.length + 1)) = P
    cases w.msb with
    | false => simp [wordsVal]
    | true =>
      have hones : wordsVal [BitVec.allOnes 64] = 2 ^ 64 - 1 := rfl
      have hmsb : (BitVec.allOnes 64).msb = true := rfl
      simp only [if_true, hones, hmsb]
      push_cast
      ring

/-! ### What the commands do -/

theorem exec_seqb (ts ss : Sign) (rd : Reg) (s : State) : exec (.seqb ts ss rd) s = .next (s.openSeq rd ts ss) := rfl

theorem exec_seqw {s : State} {w : Word} (hopen : s.seqOpen = true) (hdata : s.data = some w) :
    exec .seqw s = .next (s.pushSeq w) := by
  simp [exec, execSeqw, readData, hopen, hdata]

theorem exec_seqe {s : State} (hopen : s.seqOpen = true) : exec .seqe s =
    .next (s.writeOptional s.seqTS s.seqRd (seqval s.seqBuf s.seqSS)).closeSeq := by
  simp [exec, execSeqe, hopen]

theorem exec_fromwt {s : State} {w : Word} (ss : Sign) (rd : Reg) (hdata : s.data = some w) :
    exec (.fromwt ss rd) s = .next (s.writeV rd (extend s.cfg.width ss w)) := by
  simp [exec, execFromwt, readDataVal_of_valid ss hdata, bits_val_word]

theorem exec_fromwc {s : State} {w : Word} (ts ss : Sign) (rd : Reg) (hdata : s.data = some w) :
    exec (.fromwc ts ss rd) s = .next (s.writeV rd (bits s.cfg.width (clamp s.cfg.width ts (val ss w)))) := by
  simp [exec, execFromwc, readDataVal_of_valid ss hdata]

theorem exec_fromwe {s : State} {w : Word} (ts ss : Sign) (rd : Reg) (hdata : s.data = some w) :
    exec (.fromwe ts ss rd) s = .next (s.writeOptional ts rd (val ss w)) := by
  simp [exec, execFromwe, readDataVal_of_valid ss hdata]

/-- A command whose body makes a check that fails enters the fault state (R402, R403). -/
theorem faults_of_body_error {i : Instr} {s : State} {body : Except Cause State} {k : Cause}
    (hexec : exec i s = command i s body) (h : body = .error k) : Faults i s k.code := by
  rw [Faults, hexec, h, command_error, enterFault]

/-- SEQW and SEQE with no open sequence (R103, R104). -/
theorem faults_seqState {s : State} (hopen : s.seqOpen = false) : Faults .seqw s 3 ∧ Faults .seqe s 3 :=
  ⟨faults_of_body_error (k := .seqState) rfl (by simp [hopen]),
    faults_of_body_error (k := .seqState) rfl (by simp [hopen])⟩

theorem readData_of_invalid {s : State} (h : s.data = none) : readData s = .error .uninit := by
  simp [readData, h]

theorem readDataVal_of_invalid {s : State} (sg : Sign) (h : s.data = none) : readDataVal s sg = .error .uninit := by
  simp [readDataVal, readData_of_invalid h]

/-- A command that writes one register and nothing else. -/
theorem writes_of_exec {N : Nat} {i : Instr} {s : State} {rd : Reg} {y : BitVec N} (hN : s.cfg.width = N)
    (h : exec i s = .next (s.writeV rd y)) : Writes i s rd y s.ov := by
  obtain ⟨hholds, hframe, hother⟩ := writeV_spec s rd y hN
  exact ⟨_, h, hholds, hframe, hother⟩

/-! ### SEQB, SEQW and SEQE -/

/-- Settles O43: the equations of the two commands, and their two faults (R102, R103). -/
theorem sequenceBeginAndWord : Obligations.SequenceBeginAndWord := by
  unfold Obligations.SequenceBeginAndWord
  intro s _
  refine ⟨fun ts ss rd => decode_of_encode_eq (i := .seqb ts ss rd) rfl rfl, decode_of_encode_eq (i := .seqw) rfl rfl,
    fun ts ss rd => exec_seqb ts ss rd s, fun w hopen hdata => exec_seqw hopen hdata,
    fun hopen => (faults_seqState hopen).1, fun hopen hdata => ?_⟩
  exact faults_of_body_error (k := .uninit) rfl (by simp [hopen, readData_of_invalid hdata])

/-- SEQE with a present result: the target holds the sequence's value, NIL is 0 and the staging state is cleared (R104). -/
theorem exec_seqe_present {s : State} (hopen : s.seqOpen = true)
    (hrep : rep s.cfg.width s.seqTS (seqval s.seqBuf s.seqSS) = true) :
    ∃ (t : State) (x : BitVec s.cfg.width), exec .seqe s = .next t ∧ val s.seqTS x = seqval s.seqBuf s.seqSS ∧
      Holds t s.seqRd x ∧ (∀ r, r ≠ s.seqRd → t.reg r = s.reg r) ∧
      t = { s with regs := t.regs, nil := false, seqOpen := false, seqBuf := [], seqRd := 0, seqTS := .u,
                   seqSS := .u } := by
  obtain ⟨hholds, hframe, hother⟩ := (writeOptional_spec s s.seqTS s.seqRd _).1 hrep
  exact ⟨_, _, exec_seqe hopen, val_bits (width_pos _) hrep, hholds, hother, congrArg State.closeSeq hframe⟩

/-- Settles O44, by whether the value is in the target's range (`exec_seqe_present`, `writeOptional_spec`). -/
theorem sequenceEnd : Obligations.SequenceEnd := by
  unfold Obligations.SequenceEnd
  rintro N s - rfl
  refine ⟨decode_of_encode_eq (i := .seqe) rfl rfl, exec_seqe_present, fun hopen hrep => ?_,
    fun hopen => (faults_seqState hopen).2⟩
  rw [exec_seqe hopen, (writeOptional_spec s s.seqTS s.seqRd _).2 hrep]
  rfl

/-! ### FROMWT, FROMWC and FROMWE -/

/-- Settles O46: the extended word is the word's value at the register's width, and that value is in the target's range
unless it is negative and the target unsigned (`rep_val_word`). -/
theorem constructFromOneWord : Obligations.ConstructFromOneWord := by
  unfold Obligations.ConstructFromOneWord
  rintro N ts ss rd s - rfl
  refine ⟨decode_of_encode_eq (i := .fromwt ss rd) rfl rfl, decode_of_encode_eq (i := .fromwc ts ss rd) rfl rfl,
    decode_of_encode_eq (i := .fromwe ts ss rd) rfl rfl,
    fun w hdata => ⟨writes_of_exec rfl (exec_fromwt ss rd hdata), ?_⟩, fun hdata => ?_⟩
  · have hrep := rep_val_word (width_gt_word s.cfg) ts ss w
    have hc := exec_fromwc ts ss rd hdata
    have he := exec_fromwe ts ss rd hdata
    split
    next habsent =>
      rw [(writeOptional_spec s ts rd _).2 (by simpa [habsent] using hrep)] at he
      obtain ⟨rfl, rfl, hmsb⟩ := habsent
      rw [clamp_unsigned_of_neg _ ((val_neg_iff .s w).2 ⟨rfl, hmsb⟩)] at hc
      exact ⟨writes_of_exec rfl hc, he⟩
    next hpresent =>
      have hrep := hrep.2 hpresent
      rw [clamp_of_rep hrep, bits_val_word] at hc
      obtain ⟨hholds, hframe, hother⟩ := (writeOptional_spec s ts rd _).1 hrep
      rw [bits_val_word] at hholds
      exact ⟨writes_of_exec rfl hc, _, he, hholds, hframe, hother⟩
  · have hread := readDataVal_of_invalid ss hdata
    refine ⟨?_, ?_, ?_⟩ <;> exact faults_of_body_error (k := .uninit) rfl (by rw [hread]; rfl)

/-! ### The round trip -/

/-- The host issues a command that completes, then goes on (R56, R60). -/
theorem runHost_issue {i : Instr} {s t : State} (es : List HostEvent) (hw : i.wellFormed = true)
    (hs : s.fault = false) (h : exec i s = .next t) : runHost s (issue i :: es) = runHost t es := by
  have hwrite : hostEvent (issue i) s = writeCmd (encode i) s := rfl
  rw [runHost_cons, hwrite, writeCmd_running hs, decode_encode hw]
  simp only [h, andThen_next]

/-- The host writes DATA, then goes on (R25, R60). -/
theorem runHost_putData {s : State} (w : Word) (es : List HostEvent) (hs : s.fault = false) :
    runHost s (putData w :: es) = runHost (s.setData w) es := by
  have hwrite : hostEvent (putData w) s = .next (writeData w s) := rfl
  rw [runHost_cons, hwrite, writeData_running hs, andThen_next]

/-- The host hands over words one by one: each is written to DATA and appended by SEQW (R103). -/
def loadWords (ws : List Word) : List HostEvent := ws.flatMap fun w => [putData w, issue .seqw]

/-- Words handed over to an open sequence are appended to it in order; besides only DATA changes. -/
theorem runHost_loadWords {s : State} (ws : List Word) (es : List HostEvent) (hs : s.fault = false)
    (hopen : s.seqOpen = true) :
    ∃ d, runHost s (loadWords ws ++ es) = runHost { s with data := d, seqBuf := s.seqBuf ++ ws } es := by
  induction ws generalizing s with
  | nil => exact ⟨s.data, by rw [List.append_nil]; rfl⟩
  | cons w ws ih =>
    have hseqw : exec .seqw (s.setData w) = .next ((s.setData w).pushSeq w) := exec_seqw hopen rfl
    obtain ⟨d, hd⟩ := ih (s := (s.setData w).pushSeq w) hs hopen
    refine ⟨d, ?_⟩
    calc runHost s (loadWords (w :: ws) ++ es)
        = runHost s (putData w :: issue .seqw :: (loadWords ws ++ es)) := rfl
      _ = runHost ((s.setData w).pushSeq w) (loadWords ws ++ es) := by
        rw [runHost_putData w _ hs]
        exact runHost_issue _ rfl hs hseqw
      _ = _ := by
        rw [hd]
        simp [State.pushSeq, State.setData]

/-- The words of a pattern are its bits 64k+63 to 64k in order (R11). -/
theorem map_extractWord {N : Nat} (n : Nat) (x : BitVec N) :
    (List.range n).map (fun k => x.extractLsb' (64 * k) 64) = toWords n x.toNat := by
  apply List.ext_getElem?
  intro k
  by_cases hk : k < n
  · rw [toWords_getElem? _ _ _ hk, List.getElem?_map, List.getElem?_range hk, Option.map_some, extractWord_eq]
  · rw [List.getElem?_eq_none (by simpa using hk), List.getElem?_eq_none (by simpa using hk)]

/-- Settles O47: the loaded words are those of x, their sequence has the value of x (`seqval_toWords`), and that value is
in the range of its own signedness. -/
theorem sequenceRoundTrip : Obligations.SequenceRoundTrip := by
  unfold Obligations.SequenceRoundTrip
  rintro N s sg rd x hs rfl
  have hload : (List.range s.cfg.words).flatMap (fun k => [putData (x.extractLsb' (64 * k) 64), issue .seqw]) =
      loadWords (toWords s.cfg.words x.toNat) := by
    rw [loadWords, ← map_extractWord, List.flatMap_map]
  obtain ⟨d, hd⟩ := runHost_loadWords (s := s.openSeq rd sg sg) (toWords s.cfg.words x.toNat) [issue .seqe] hs rfl
  have hvalue : seqval (toWords s.cfg.words x.toNat) sg = val sg x := seqval_toWords sg x
  obtain ⟨t, y, hseqe, hy, hholds, hother, hframe⟩ :=
    exec_seqe_present (s := { s.openSeq rd sg sg with data := d, seqBuf := toWords s.cfg.words x.toNat }) rfl
      (hvalue ▸ rep_val sg x)
  have hyx : y = x := val_injective sg (hy.trans hvalue)
  refine ⟨{ t with hostIn := [] }, ?_, hyx ▸ hholds, congrArg State.nil hframe,
    (congrArg State.fault hframe).trans hs, congrArg State.seqOpen hframe, hother⟩
  rw [hload, List.append_assoc, List.singleton_append, runHost_issue _ rfl hs (exec_seqb sg sg rd s)]
  exact hd.trans (runHost_issue [] rfl hs hseqe)

end Sys2Proof.Machine

/-! ## Addition and subtraction

ADD, SUB, ADDD and SUBD (R130 to R138). Each writes its exact sum or difference through `State.writeResult`, so what is
left to say is when that integer is out of range, and what its pattern is. -/

namespace Sys2Proof.Machine

/-! ### Patterns of sums and differences -/

theorem bits_add_int (N : Nat) (u v : Int) : bits N (u + v) = bits N u + bits N v := BitVec.ofInt_add u v

theorem bits_sub_int (N : Nat) (u v : Int) : bits N (u - v) = bits N u - bits N v := by
  rw [Int.sub_eq_add_neg, bits_add_int, BitVec.sub_eq_add_neg]
  exact congrArg _ BitVec.ofInt_neg

/-! ### Integers out of range -/

theorem overflow_iff {M : Nat} {sg : Sign} {v : Int} : overflow M sg v = true ↔ v < minS M sg ∨ maxS M sg < v := by
  rw [overflow, Bool.not_eq_true', Bool.eq_false_iff, ne_eq, rep_iff]
  omega

theorem overflow_eq_false_iff {M : Nat} {sg : Sign} {v : Int} : overflow M sg v = false ↔ rep M sg v = true := by
  rw [overflow, Bool.not_eq_false']

/-- The exact sum of two patterns as unsigned integers is out of range exactly when it carries out (R130). -/
theorem overflow_unsigned_add (N : Nat) (m n : Nat) : overflow N .u ((m : Int) + n) = decide (2 ^ N ≤ m + n) := by
  rw [Bool.eq_iff_iff, overflow_iff, decide_eq_true_iff]
  simp only [minS, maxS]
  omega

/-- The exact difference of two patterns as unsigned integers is out of range exactly when it borrows (R132). -/
theorem overflow_unsigned_sub {N m : Nat} (hm : m < 2 ^ N) (n : Nat) :
    overflow N .u ((m : Int) - n) = decide (m < n) := by
  rw [Bool.eq_iff_iff, overflow_iff, decide_eq_true_iff]
  simp only [minS, maxS]
  omega

/-- The sign rule of addition (R130). -/
theorem overflow_signed_add {N : Nat} (a b : BitVec N) :
    overflow N .s (val .s a + val .s b) = (a.msb == b.msb && (a + b).msb != a.msb) := by
  have hrange : overflow N .s (val .s a + val .s b) = a.saddOverflow b := by
    rw [Bool.eq_iff_iff, overflow_iff]
    simp only [BitVec.saddOverflow, Bool.or_eq_true, decide_eq_true_iff, minS, maxS, val]
    push_cast
    omega
  rw [hrange, BitVec.saddOverflow_eq, bne]

/-- The sign rule of subtraction (R132). -/
theorem overflow_signed_sub {N : Nat} (a b : BitVec N) :
    overflow N .s (val .s a - val .s b) = (a.msb != b.msb && (a - b).msb != a.msb) := by
  have hrange : overflow N .s (val .s a - val .s b) = a.ssubOverflow b := by
    rw [Bool.eq_iff_iff, overflow_iff]
    simp only [BitVec.ssubOverflow, Bool.or_eq_true, decide_eq_true_iff, minS, maxS, val]
    push_cast
    omega
  rw [hrange, BitVec.ssubOverflow_eq]
  cases a.msb <;> cases b.msb <;> cases (a - b).msb <;> rfl

/-! ### What the commands do -/

theorem exec_add {s : State} {ra rb : Reg} {a b : BitVec s.cfg.width} (sg : Sign) (rd : Reg) (ha : Holds s ra a)
    (hb : Holds s rb b) : exec (.add sg rd ra rb) s = .next (s.writeResult sg rd (val sg a + val sg b)) := by
  simp [exec, execAdd, readVal_of_holds sg ha, readVal_of_holds sg hb]

theorem exec_sub {s : State} {ra rb : Reg} {a b : BitVec s.cfg.width} (sg : Sign) (rd : Reg) (ha : Holds s ra a)
    (hb : Holds s rb b) : exec (.sub sg rd ra rb) s = .next (s.writeResult sg rd (val sg a - val sg b)) := by
  simp [exec, execSub, readVal_of_holds sg ha, readVal_of_holds sg hb]

theorem exec_addd {s : State} {ra rb : Reg} {a : BitVec s.cfg.width} {w : Word} (sg : Sign) (rd : Reg)
    (ha : Holds s ra a) (hw : HoldsWord s rb 0 w) :
    exec (.addd sg rd ra rb) s = .next (s.writeResult sg rd (val sg a + val sg w)) := by
  simp [exec, execAddd, readVal_of_holds sg ha, readDigit_of_holds sg hw]

theorem exec_subd {s : State} {ra rb : Reg} {a : BitVec s.cfg.width} {w : Word} (sg : Sign) (rd : Reg)
    (ha : Holds s ra a) (hw : HoldsWord s rb 0 w) :
    exec (.subd sg rd ra rb) s = .next (s.writeResult sg rd (val sg a - val sg w)) := by
  simp [exec, execSubd, readVal_of_holds sg ha, readDigit_of_holds sg hw]

/-- A command that ends in `State.writeResult` writes the pattern of its exact result and whether that is out of range. -/
theorem writes_of_writeResult {i : Instr} {s : State} {sg : Sign} {rd : Reg} {v : Int} {y : BitVec s.cfg.width}
    (h : exec i s = .next (s.writeResult sg rd v)) (hy : bits s.cfg.width v = y) :
    Writes i s rd y (overflow s.cfg.width sg v) := by
  obtain ⟨hholds, hframe, hother⟩ := writeResult_spec s sg rd v
  exact ⟨_, h, hy ▸ hholds, hframe, hother⟩

/-! ### Invalid sources -/

theorem readVal_of_invalid {s : State} {r : Reg} (sg : Sign) (h : HasInvalid s r) :
    readVal s sg r = .error .uninit := by
  simp [readVal, readV_of_invalid h]

theorem readDigit_of_invalid {s : State} {r : Reg} (sg : Sign) (h : InvalidWord s r 0) :
    readDigit s sg r = .error .uninit := by
  simp [readDigit, readWord_of_invalid h]

/-- Two reads of which one fails end in UNINIT, in whatever order they are made (R405). -/
theorem bind_bind_uninit {α β : Type} {x : Except Cause α} {y : Except Cause β} {f : α → β → Except Cause State}
    (hx : ∀ k, x = .error k → k = .uninit) (h : x = .error .uninit ∨ y = .error .uninit) :
    (x >>= fun a => y >>= f a) = .error .uninit := by
  cases x with
  | error k => rw [bind_error, hx k rfl]
  | ok a =>
    obtain h | rfl := h
    · cases h
    · rfl

/-- A command that reads two registers in full, one of which has an invalid word. -/
theorem faults_of_invalid {i : Instr} {s : State} {sg : Sign} {ra rb : Reg} {f : Int → Int → Except Cause State}
    (hexec : exec i s = command i s (readVal s sg ra >>= fun a => readVal s sg rb >>= f a))
    (h : HasInvalid s ra ∨ HasInvalid s rb) : Faults i s 2 :=
  faults_of_body_error (k := .uninit) hexec
    (bind_bind_uninit (fun _ => readVal_eq_error) (h.imp (readVal_of_invalid sg) (readVal_of_invalid sg)))

/-- A command that reads one register in full and the Digit of another, where one of the reads meets an invalid word. -/
theorem faults_of_invalid_digit {i : Instr} {s : State} {sg : Sign} {ra rb : Reg} {f : Int → Int → Except Cause State}
    (hexec : exec i s = command i s (readVal s sg ra >>= fun a => readDigit s sg rb >>= f a))
    (h : HasInvalid s ra ∨ InvalidWord s rb 0) : Faults i s 2 :=
  faults_of_body_error (k := .uninit) hexec
    (bind_bind_uninit (fun _ => readVal_eq_error) (h.imp (readVal_of_invalid sg) (readDigit_of_invalid sg)))

/-! ### ADD, SUB, ADDD and SUBD -/

/-- Settles O26: the patterns of the exact sum and difference are those of the operands' sum and difference, and being out
of range is the carry, the borrow or the sign rule. -/
theorem addAndSubtract : Obligations.AddAndSubtract := by
  unfold Obligations.AddAndSubtract
  intro N sg rd ra rb s _
  refine ⟨decode_of_encode_eq (i := .add sg rd ra rb) rfl rfl, decode_of_encode_eq (i := .sub sg rd ra rb) rfl rfl,
    fun a b ha hb => ?_, fun h => ⟨faults_of_invalid rfl h, faults_of_invalid rfl h⟩⟩
  obtain rfl : s.cfg.width = N := ha.1
  exact ⟨writes_of_writeResult (exec_add sg rd ha hb) (bits_add sg a b),
    writes_of_writeResult (exec_sub sg rd ha hb) (by rw [bits_sub_int, bits_val, bits_val]),
    overflow_unsigned_add _ a.toNat b.toNat, overflow_unsigned_sub a.isLt b.toNat,
    overflow_signed_add a b, overflow_signed_sub a b⟩

/-- Settles O27, as O26 with the word extended to the register's width (`bits_val_word`). -/
theorem addAndSubtractDigit : Obligations.AddAndSubtractDigit := by
  unfold Obligations.AddAndSubtractDigit
  intro N sg rd ra rb s _
  refine ⟨decode_of_encode_eq (i := .addd sg rd ra rb) rfl rfl, decode_of_encode_eq (i := .subd sg rd ra rb) rfl rfl,
    fun a w ha hw => ?_, fun h => ⟨faults_of_invalid_digit rfl h, faults_of_invalid_digit rfl h⟩⟩
  obtain rfl : s.cfg.width = N := ha.1
  exact ⟨writes_of_writeResult (exec_addd sg rd ha hw) (by rw [bits_add_int, bits_val, bits_val_word]),
    writes_of_writeResult (exec_subd sg rd ha hw) (by rw [bits_sub_int, bits_val, bits_val_word]),
    overflow_unsigned_add _ a.toNat w.toNat, overflow_unsigned_sub a.isLt w.toNat⟩

/-! ### Subtracting what was added -/

/-- Taking away what was added leaves the first operand's pattern, and its value where the sum was in range (R138). -/
theorem sub_of_add {N : Nat} (hN : 0 < N) (sg : Sign) (a : BitVec N) (d : Int) :
    bits N (val sg (bits N (val sg a + d)) - d) = a ∧
      (overflow N sg (val sg a + d) = false → overflow N sg (val sg (bits N (val sg a + d)) - d) = false) := by
  constructor
  · rw [bits_sub_int, bits_val, bits_add_int, bits_val, BitVec.add_sub_cancel]
  · intro h
    rw [val_bits hN (overflow_eq_false_iff.1 h), Int.add_sub_cancel]
    exact overflow_eq_false_iff.2 (rep_val sg a)

/-- A command that adds `d` to `a`, and then one that takes `d` away from what the first left in `rd`. -/
theorem exists_next_add_then_sub {i j : Instr} {s : State} {sg : Sign} {rd re : Reg} {a : BitVec s.cfg.width} {d : Int}
    (hadd : exec i s = .next (s.writeResult sg rd (val sg a + d)))
    (hsub : exec j (s.writeResult sg rd (val sg a + d)) =
      .next ((s.writeResult sg rd (val sg a + d)).writeResult sg re (val sg (bits s.cfg.width (val sg a + d)) - d))) :
    ∃ t u, exec i s = .next t ∧ exec j t = .next u ∧ Holds u re a ∧ (t.ov = false → u.ov = false) := by
  obtain ⟨hbits, hov⟩ := sub_of_add (width_pos s.cfg) sg a d
  obtain ⟨u, hu, hholds, hframe, -⟩ := writes_of_writeResult hsub hbits
  refine ⟨_, u, hadd, hu, hholds, fun h => ?_⟩
  rw [hframe]
  exact hov h

/-- Settles O48: the addition leaves its sum in the minuend's register and, as `rd ≠ rb`, the subtrahend as it was. -/
theorem addThenSubtractRestores : Obligations.AddThenSubtractRestores := by
  unfold Obligations.AddThenSubtractRestores
  intro N sg rd re ra rb s a b _ hne ha hb
  obtain rfl : s.cfg.width = N := ha.1
  have hw : HoldsWord s rb 0 (b.extractLsb' (64 * 0) 64) := holdsWord_of_holds hb (words_pos s.cfg)
  have hsum (v : Int) : Holds (s.writeResult sg rd v) rd (bits s.cfg.width v) := writeV_holds s rd _ rfl
  have hkept (v : Int) : (s.writeResult sg rd v).reg rb = s.reg rb := writeV_reg_ne s _ hne.symm
  have hb' (v : Int) : Holds (s.writeResult sg rd v) rb b := by rwa [Holds, hkept]
  have hw' (v : Int) : HoldsWord (s.writeResult sg rd v) rb 0 (b.extractLsb' (64 * 0) 64) := by
    rwa [HoldsWord, hkept]
  exact ⟨exists_next_add_then_sub (exec_add sg rd ha hb) (exec_sub sg re (hsum _) (hb' _)),
    exists_next_add_then_sub (exec_addd sg rd ha hw) (exec_subd sg re (hsum _) (hw' _))⟩

end Sys2Proof.Machine

/-! ## Reference datapaths of addition, subtraction and negation

A datapath computes an integer at a width when it gives the integer's pattern and whether the integer is out of range
(`Computes`): that is what `State.writeResult` writes. Datapaths are put together from a high and a low part
(`Computes.append`), where the low part's carry or borrow adjusts the high part. -/

namespace Sys2Proof.Machine

/-! ### Integers modulo a power of two -/

theorem minS_le_zero (M : Nat) (sg : Sign) : minS M sg ≤ 0 := by
  cases sg with
  | u => exact Int.le_refl 0
  | s => exact Int.neg_nonpos_of_nonneg (Int.natCast_nonneg _)

theorem maxS_nonneg (M : Nat) (sg : Sign) : 0 ≤ maxS M sg := by
  have hfull := Nat.two_pow_pos M
  have hhalf := Nat.two_pow_pos (M - 1)
  cases sg <;> simp only [maxS] <;> omega

/-- Both readings of M bits range over 2^M integers (R12). -/
theorem maxS_eq {M : Nat} (hM : 0 < M) (sg : Sign) : maxS M sg = minS M sg + (2 ^ M : Nat) - 1 := by
  have hpow : 2 ^ M = 2 ^ (M - 1) * 2 := (Nat.pow_pred_mul hM).symm
  cases sg <;> simp only [minS, maxS] <;> omega

theorem bits_eq_iff_emod {M : Nat} {u v : Int} : bits M u = bits M v ↔ u % (2 ^ M : Nat) = v % (2 ^ M : Nat) := by
  have hpos : ((2 ^ M : Nat) : Int) ≠ 0 := by exact_mod_cast (Nat.two_pow_pos M).ne'
  rw [← BitVec.toNat_inj, bits, bits, BitVec.toNat_ofInt, BitVec.toNat_ofInt]
  have hu := Int.emod_nonneg u hpos
  have hv := Int.emod_nonneg v hpos
  omega

/-- What an integer out of range reads as, when 2^M less is in range (R12). -/
theorem val_bits_of_rep_sub {M : Nat} (hM : 0 < M) {sg : Sign} {v : Int} (h : rep M sg (v - (2 ^ M : Nat)) = true) :
    val sg (bits M v) = v - (2 ^ M : Nat) := by
  rw [← val_bits hM h]
  exact congrArg (val sg) (bits_eq_iff_emod.2 (Int.sub_emod_right ..).symm)

/-- What an integer out of range reads as, when 2^M more is in range (R12). -/
theorem val_bits_of_rep_add {M : Nat} (hM : 0 < M) {sg : Sign} {v : Int} (h : rep M sg (v + (2 ^ M : Nat)) = true) :
    val sg (bits M v) = v + (2 ^ M : Nat) := by
  rw [← val_bits hM h]
  exact congrArg (val sg) (bits_eq_iff_emod.2 (Int.add_emod_right ..).symm)

/-- Near enough to the range for one wrap to bring it in (R12). -/
def WithinOneWrap (M : Nat) (sg : Sign) (t : Int) : Prop :=
  minS M sg - (2 ^ M : Nat) ≤ t ∧ t ≤ maxS M sg + (2 ^ M : Nat)

theorem withinOneWrap_add {M : Nat} (hM : 0 < M) {sg : Sign} {u v : Int} (hu : rep M sg u = true)
    (hv : rep M sg v = true) : WithinOneWrap M sg (u + v) ∧ WithinOneWrap M sg (u + v + 1) := by
  have hmin := minS_le_zero M sg
  have hmax := maxS_nonneg M sg
  have hspan := maxS_eq hM sg
  rw [rep_iff] at hu hv
  simp only [WithinOneWrap]
  omega

theorem withinOneWrap_sub {M : Nat} (hM : 0 < M) {sg : Sign} {u v : Int} (hu : rep M sg u = true)
    (hv : rep M sg v = true) : WithinOneWrap M sg (u - v) ∧ WithinOneWrap M sg (u - v + -1) := by
  have hmin := minS_le_zero M sg
  have hmax := maxS_nonneg M sg
  have hspan := maxS_eq hM sg
  rw [rep_iff] at hu hv
  simp only [WithinOneWrap]
  omega

/-- Adding a carry or taking a borrow after a result that has wrapped: of the two overflow flags exactly one is set where
the exact result is out of range (R131, R133). -/
theorem overflow_xor_adjust {M : Nat} (hM : 0 < M) {sg : Sign} {t d : Int} (hd : -1 ≤ d ∧ d ≤ 1)
    (ht : WithinOneWrap M sg t ∧ WithinOneWrap M sg (t + d)) :
    (overflow M sg t ^^ overflow M sg (val sg (bits M t) + d)) = overflow M sg (t + d) := by
  obtain ⟨⟨htlo, hthi⟩, hdlo, hdhi⟩ := ht
  have hspan := maxS_eq hM sg
  have htwo : 2 ≤ 2 ^ M := Nat.le_self_pow hM.ne' 2
  by_cases hhigh : maxS M sg < t
  · have hval := val_bits_of_rep_sub hM (sg := sg) (v := t) (by rw [rep_iff]; omega)
    rw [hval, overflow_iff.2 (.inr hhigh), Bool.true_xor, Bool.eq_iff_iff, Bool.not_eq_true', Bool.eq_false_iff, ne_eq,
      overflow_iff, overflow_iff]
    omega
  by_cases hlow : t < minS M sg
  · have hval := val_bits_of_rep_add hM (sg := sg) (v := t) (by rw [rep_iff]; omega)
    rw [hval, overflow_iff.2 (.inl hlow), Bool.true_xor, Bool.eq_iff_iff, Bool.not_eq_true', Bool.eq_false_iff, ne_eq,
      overflow_iff, overflow_iff]
    omega
  · have hrep : rep M sg t = true := rep_iff.2 ⟨by omega, by omega⟩
    rw [val_bits hM hrep, overflow_eq_false_iff.2 hrep, Bool.false_xor]

/-! ### A high part above a low part -/

theorem minS_add {B : Nat} (hB : 0 < B) (A : Nat) (sg : Sign) : minS (B + A) sg = minS B sg * (2 ^ A : Nat) := by
  cases sg with
  | u => exact (Int.zero_mul _).symm
  | s =>
    have hexp : B + A - 1 = B - 1 + A := by omega
    simp only [minS, hexp, pow_add]
    push_cast
    ring

theorem maxS_add {B : Nat} (hB : 0 < B) (A : Nat) (sg : Sign) :
    maxS (B + A) sg = (maxS B sg + 1) * (2 ^ A : Nat) - 1 := by
  rw [maxS_eq (by omega), maxS_eq hB, minS_add hB, pow_add]
  push_cast
  ring

/-- Whether an integer is in range does not depend on its low part (R8). -/
theorem rep_append {B A : Nat} (hB : 0 < B) {sg : Sign} (h : Int) {l : Nat} (hl : l < 2 ^ A) :
    rep (B + A) sg (h * (2 ^ A : Nat) + l) = rep B sg h := by
  have hpos : (0 : Int) < (2 ^ A : Nat) := by exact_mod_cast Nat.two_pow_pos A
  have hquot : (h * (2 ^ A : Nat) + l) / ((2 ^ A : Nat) : Int) = h := by
    rw [Int.add_comm, Int.add_mul_ediv_right _ _ hpos.ne', Int.ediv_eq_zero_of_lt (by omega) (by exact_mod_cast hl),
      Int.zero_add]
  have hmin : minS B sg * (2 ^ A : Nat) ≤ h * (2 ^ A : Nat) + l ↔ minS B sg ≤ h := by
    rw [← Int.le_ediv_iff_mul_le hpos, hquot]
  have hmax : h * (2 ^ A : Nat) + l < (maxS B sg + 1) * (2 ^ A : Nat) ↔ h < maxS B sg + 1 := by
    rw [← Int.ediv_lt_iff_lt_mul hpos, hquot]
  rw [Bool.eq_iff_iff, rep_iff, rep_iff, minS_add hB, maxS_add hB, hmin, Int.le_sub_one_iff, hmax, Int.lt_add_one_iff]

theorem bits_append {B A : Nat} {u v : Int} (huv : bits B u = bits B v) (l : Int) :
    bits (B + A) (u * (2 ^ A : Nat) + l) = bits (B + A) (v * (2 ^ A : Nat) + l) := by
  have hpos : (0 : Int) < (2 ^ A : Nat) := by exact_mod_cast Nat.two_pow_pos A
  rw [bits_add_int, bits_add_int]
  refine congrArg (· + bits (B + A) l) (bits_eq_iff_emod.2 ?_)
  rw [pow_add, Nat.cast_mul, Int.mul_comm u, Int.mul_comm v, Int.mul_comm ((2 ^ B : Nat) : Int),
    Int.mul_emod_mul_of_pos _ _ hpos, Int.mul_emod_mul_of_pos _ _ hpos, bits_eq_iff_emod.1 huv]

theorem bits_natCast (M p : Nat) : bits M (p : Int) = BitVec.ofNat M p := BitVec.ofInt_natCast M p

/-- A pattern reads as its high part, read in the same way, above its low part (R8, R12). -/
theorem val_append {B A : Nat} (hB : 0 < B) (sg : Sign) (p : Nat) {l : Nat} (hl : l < 2 ^ A) :
    val sg (BitVec.ofNat (B + A) (p * 2 ^ A + l)) = val sg (BitVec.ofNat B p) * (2 ^ A : Nat) + l := by
  have hp : bits B (p : Int) = bits B (val sg (BitVec.ofNat B p)) := by rw [bits_val, bits_natCast]
  have hrep : rep (B + A) sg (val sg (BitVec.ofNat B p) * (2 ^ A : Nat) + l) = true := by
    rw [rep_append hB _ hl, rep_val]
  rw [← val_bits (by omega) hrep, ← bits_append hp, ← bits_natCast, Nat.cast_add, Nat.cast_mul]

/-! ### What a datapath computes -/

/-- The unsigned value `p` and the flag are the M-bit pattern of the integer `v` and its overflow. -/
structure Computes (M : Nat) (sg : Sign) (v : Int) (p : Nat) (ov : Bool) : Prop where
  result : BitVec.ofNat M p = bits M v
  flag : ov = overflow M sg v

theorem computes_bits (M : Nat) (sg : Sign) (v : Int) : Computes M sg v (bits M v).toNat (overflow M sg v) :=
  ⟨by rw [BitVec.ofNat_toNat, BitVec.setWidth_eq], rfl⟩

/-- A high part that computes `h`, above a low part, computes `h` above that low part. -/
theorem Computes.append {B A : Nat} {sg : Sign} {h : Int} {p l : Nat} {ov : Bool} (hc : Computes B sg h p ov)
    (hB : 0 < B) (hl : l < 2 ^ A) : Computes (B + A) sg (h * (2 ^ A : Nat) + l) (p * 2 ^ A + l) ov where
  result := by
    have hp : bits B (p : Int) = bits B h := by rw [← hc.result, bits_natCast]
    rw [← bits_append hp, ← bits_natCast, Nat.cast_add, Nat.cast_mul]
  flag := by rw [hc.flag, overflow, overflow, rep_append hB _ hl]

/-- The unsigned value that a datapath computes, as a reading. -/
theorem Computes.val_eq {M : Nat} {sg : Sign} {v : Int} {p : Nat} {ov : Bool} (hc : Computes M sg v p ov) (sg' : Sign) :
    val sg' (BitVec.ofNat M p) = val sg' (bits M v) := congrArg (val sg') hc.result

theorem val_unsigned_ofNat {M p : Nat} (hp : p < 2 ^ M) : val .u (BitVec.ofNat M p) = p := by
  rw [val, BitVec.toNat_ofNat, Nat.mod_eq_of_lt hp]

/-- An unsigned sum is its carry above what the adder gives (R131). -/
theorem Computes.carry {M : Nat} {v : Int} {p : Nat} {ov : Bool} (hc : Computes M .u v p ov) (hM : 0 < M)
    (hp : p < 2 ^ M) (hv : 0 ≤ v ∧ v < 2 * (2 ^ M : Nat)) :
    v = (if ov = true then 1 else 0) * (2 ^ M : Nat) + p := by
  have hval := hc.val_eq .u
  have hflag := hc.flag
  rw [val_unsigned_ofNat hp] at hval
  cases ov with
  | false =>
    rw [val_bits hM (overflow_eq_false_iff.1 hflag.symm)] at hval
    simp [hval]
  | true =>
    have hout := overflow_iff.1 hflag.symm
    simp only [minS, maxS] at hout
    rw [val_bits_of_rep_sub hM (by rw [rep_iff]; simp only [minS, maxS]; omega)] at hval
    simp only [if_true]
    omega

/-- An unsigned difference is its borrow, negative, above what the subtractor gives (R133). -/
theorem Computes.borrow {M : Nat} {v : Int} {p : Nat} {ov : Bool} (hc : Computes M .u v p ov) (hM : 0 < M)
    (hp : p < 2 ^ M) (hv : -(2 ^ M : Nat) ≤ v ∧ v < (2 ^ M : Nat)) :
    v = (if ov = true then -1 else 0) * (2 ^ M : Nat) + p := by
  have hval := hc.val_eq .u
  have hflag := hc.flag
  rw [val_unsigned_ofNat hp] at hval
  cases ov with
  | false =>
    rw [val_bits hM (overflow_eq_false_iff.1 hflag.symm)] at hval
    simp [hval]
  | true =>
    have hout := overflow_iff.1 hflag.symm
    simp only [minS, maxS] at hout
    rw [val_bits_of_rep_add hM (by rw [rep_iff]; simp only [minS, maxS]; omega)] at hval
    simp only [if_true]
    omega

/-- A command writes what a datapath computes when it ends with the integer that the datapath computes. -/
theorem Computes.writes {i : Instr} {s : State} {sg : Sign} {rd : Reg} {v : Int} {p : Nat} {ov : Bool}
    (hc : Computes s.cfg.width sg v p ov) (h : exec i s = .next (s.writeResult sg rd v)) :
    Writes i s rd (BitVec.ofNat s.cfg.width p) ov := by
  rw [hc.flag]
  exact writes_of_writeResult h hc.result.symm

/-! ### Double-width integers -/

/-- A double-width integer read with S (R8, R12). -/
def DW.value {k : Nat} (sg : Sign) (x : DW k) : Int := val sg (BitVec.ofNat (levelWidth k) x.toNat)

/-- What a datapath over double-width integers computes. -/
abbrev Outputs {k : Nat} (sg : Sign) (v : Int) (r : DW k × Bool) : Prop := Computes (levelWidth k) sg v r.1.toNat r.2

theorem levelWidth_pos (k : Nat) : 0 < levelWidth k := Nat.mul_pos (by decide) (Nat.two_pow_pos k)

theorem two_le_levelWidth (k : Nat) : 2 ≤ levelWidth k := by
  have := Nat.two_pow_pos k
  rw [levelWidth]
  omega

@[simp] theorem DW.value_word (sg : Sign) (w : Word) : (DW.word w).value sg = val sg w := by
  have hw : BitVec.ofNat (levelWidth 0) w.toNat = w := (BitVec.ofNat_toNat 64 w).trans (BitVec.setWidth_eq w)
  exact congrArg (val sg) hw

theorem DW.value_pair {k : Nat} (sg : Sign) (h l : DW k) :
    (DW.pair h l).value sg = h.value sg * (2 ^ levelWidth k : Nat) + l.toNat := by
  rw [DW.value, levelWidth_succ, DW.toNat_pair, val_append (levelWidth_pos k) sg _ l.toNat_lt, DW.value]

theorem DW.value_unsigned {k : Nat} (x : DW k) : x.value .u = x.toNat := val_unsigned_ofNat x.toNat_lt

theorem DW.rep_value {k : Nat} (sg : Sign) (x : DW k) : rep (levelWidth k) sg (x.value sg) = true := rep_val sg _

/-- The double-width integer of a pattern reads as the pattern. -/
theorem DW.value_ofNat {k : Nat} (sg : Sign) (a : BitVec (levelWidth k)) : (DW.ofNat k a.toNat).value sg = val sg a := by
  rw [DW.value, DW.toNat_ofNat, Nat.mod_eq_of_lt a.isLt, BitVec.ofNat_toNat, BitVec.setWidth_eq]

/-- The carry and the borrow that the datapaths propagate are the number 1 in both readings. -/
theorem DW.value_one (k : Nat) (sg : Sign) : (DW.ofNat k 1).value sg = 1 := by
  have hM := two_le_levelWidth k
  have hhalf : 2 ≤ 2 ^ (levelWidth k - 1) := Nat.le_self_pow (by omega) 2
  have hfull : 2 ≤ 2 ^ levelWidth k := Nat.le_self_pow (by omega) 2
  have hrep : rep (levelWidth k) sg 1 = true := by
    rw [rep_iff]
    cases sg <;> simp only [minS, maxS] <;> omega
  rw [DW.value, DW.toNat_ofNat, Nat.mod_eq_of_lt (by omega), ← bits_natCast]
  exact val_bits (levelWidth_pos k) hrep

/-- A high half that computes `h`, above a low half. -/
theorem outputs_pair {k : Nat} {sg : Sign} {h : Int} {high : DW k} {ov : Bool} (hc : Outputs sg h (high, ov))
    (low : DW k) : Outputs sg (h * (2 ^ levelWidth k : Nat) + low.toNat) (DW.pair high low, ov) := by
  rw [Outputs, levelWidth_succ]
  exact hc.append (levelWidth_pos k) low.toNat_lt

/-- The high half of a sum or difference, adjusted by `d` where the low half carries or borrows (R131, R133). -/
theorem outputs_adjust {k : Nat} {sg : Sign} {t d : Int} {high adjusted r : DW k × Bool} {c : Bool}
    (hr : r = if c = true then adjusted else (high.1, false)) (hhigh : Outputs sg t high)
    (hadj : Outputs sg (high.1.value sg + d) adjusted) (hd : -1 ≤ d ∧ d ≤ 1)
    (ht : WithinOneWrap (levelWidth k) sg t ∧ WithinOneWrap (levelWidth k) sg (t + d)) :
    Outputs sg (t + if c = true then d else 0) (r.1, high.2 ^^ r.2) := by
  subst hr
  cases c with
  | false => simpa using hhigh
  | true =>
    have hval : high.1.value sg = val sg (bits (levelWidth k) t) := hhigh.val_eq sg
    refine ⟨?_, ?_⟩
    · simp only [if_true]
      rw [hadj.result, hval, bits_add_int, bits_val, bits_add_int]
    · simp only [if_true]
      rw [hhigh.flag, hadj.flag, hval, overflow_xor_adjust (levelWidth_pos k) hd ht]

/-! ### The adder and the subtractor -/

/-- The recursive adder computes the sum (R131), by induction on the levels above the native word. -/
theorem addRef_outputs {k : Nat} (sg : Sign) (x y : DW k) : Outputs sg (x.value sg + y.value sg) (addRef sg x y) := by
  induction k generalizing sg with
  | zero =>
    cases x with | word x =>
    cases y with | word y =>
    rw [DW.value_word, DW.value_word]
    exact computes_bits 64 sg (val sg x + val sg y)
  | succ k ih =>
    cases x with | pair xh xl =>
    cases y with | pair yh yl =>
    have hxl := xl.toNat_lt
    have hyl := yl.toNat_lt
    have hlow : Outputs .u (xl.toNat + yl.toNat) (addRef .u xl yl) := by
      simpa only [DW.value_unsigned] using ih .u xl yl
    have hcarry := hlow.carry (levelWidth_pos k) (DW.toNat_lt _) (by omega)
    have hone := ih sg (addRef sg xh yh).1 (DW.ofNat k 1)
    rw [DW.value_one] at hone
    have hhigh := outputs_adjust (c := (addRef .u xl yl).2) rfl (ih sg xh yh) hone (by decide)
      (withinOneWrap_add (levelWidth_pos k) (xh.rep_value sg) (yh.rep_value sg))
    have hsplit : (DW.pair xh xl).value sg + (DW.pair yh yl).value sg = (xh.value sg + yh.value sg +
        if (addRef .u xl yl).2 = true then 1 else 0) * (2 ^ levelWidth k : Nat) + (addRef .u xl yl).1.toNat := by
      rw [DW.value_pair, DW.value_pair]
      linear_combination hcarry
    rw [hsplit]
    exact outputs_pair hhigh (addRef .u xl yl).1

/-- The recursive subtractor computes the difference (R133), by induction as the adder. -/
theorem subRef_outputs {k : Nat} (sg : Sign) (x y : DW k) : Outputs sg (x.value sg - y.value sg) (subRef sg x y) := by
  induction k generalizing sg with
  | zero =>
    cases x with | word x =>
    cases y with | word y =>
    rw [DW.value_word, DW.value_word]
    exact computes_bits 64 sg (val sg x - val sg y)
  | succ k ih =>
    cases x with | pair xh xl =>
    cases y with | pair yh yl =>
    have hxl := xl.toNat_lt
    have hyl := yl.toNat_lt
    have hlow : Outputs .u (xl.toNat - yl.toNat) (subRef .u xl yl) := by
      simpa only [DW.value_unsigned] using ih .u xl yl
    have hborrow := hlow.borrow (levelWidth_pos k) (DW.toNat_lt _) (by omega)
    have hone := ih sg (subRef sg xh yh).1 (DW.ofNat k 1)
    rw [DW.value_one, Int.sub_eq_add_neg] at hone
    have hhigh := outputs_adjust (c := (subRef .u xl yl).2) rfl (ih sg xh yh) hone (by decide)
      (withinOneWrap_sub (levelWidth_pos k) (xh.rep_value sg) (yh.rep_value sg))
    have hsplit : (DW.pair xh xl).value sg - (DW.pair yh yl).value sg = (xh.value sg - yh.value sg +
        if (subRef .u xl yl).2 = true then -1 else 0) * (2 ^ levelWidth k : Nat) + (subRef .u xl yl).1.toNat := by
      rw [DW.value_pair, DW.value_pair]
      linear_combination hborrow
    rw [hsplit]
    exact outputs_pair hhigh (subRef .u xl yl).1

/-! ### The negator -/

theorem bits_minS_add_maxS (N : Nat) (sg : Sign) : bits N (minS N sg + maxS N sg) = bits N (-1) := by
  cases sg with
  | u =>
    have hsum : minS N .u + maxS N .u = -1 + (2 ^ N : Nat) := by simp only [minS, maxS]; omega
    rw [hsum, bits_eq_iff_emod, Int.add_emod_right]
  | s =>
    have hsum : minS N .s + maxS N .s = -1 := by simp only [minS, maxS]; omega
    rw [hsum]

theorem not_eq_bits {N : Nat} (sg : Sign) (a : BitVec N) : ~~~a = bits N (-1 - val sg a) := by
  have hone : bits N (-1) = -1#N := BitVec.ofInt_neg.trans (congrArg _ (bits_natCast N 1))
  rw [bits_sub_int, bits_val, hone, BitVec.neg_one_eq_allOnes, BitVec.allOnes_sub_eq_not]

/-- The complement of a pattern mirrors its reading in the range (R230). -/
theorem val_not {N : Nat} (hN : 0 < N) (sg : Sign) (a : BitVec N) :
    val sg (~~~a) = minS N sg + maxS N sg - val sg a := by
  obtain ⟨hlo, hhi⟩ := rep_iff.1 (rep_val sg a)
  have hrep : rep N sg (minS N sg + maxS N sg - val sg a) = true := rep_iff.2 (by omega)
  rw [← val_bits hN hrep, bits_sub_int, bits_minS_add_maxS, ← bits_sub_int, ← not_eq_bits]

/-- The recursive negator computes the complement and its carry (R232), by induction on the levels. -/
theorem twosRef_outputs {k : Nat} (sg : Sign) (x : DW k) (c : Bool) :
    Outputs sg (minS (levelWidth k) sg + maxS (levelWidth k) sg - x.value sg + if c = true then 1 else 0)
      (twosRef sg x c) := by
  induction k generalizing sg c with
  | zero =>
    cases x with | word x =>
    rw [DW.value_word]
    have hnot : val sg (~~~x) = minS (levelWidth 0) sg + maxS (levelWidth 0) sg - val sg x :=
      val_not (N := 64) (by decide) sg x
    rw [← hnot]
    exact computes_bits 64 sg (val sg (~~~x) + if c = true then 1 else 0)
  | succ k ih =>
    cases x with | pair xh xl =>
    have hxl := xl.toNat_lt
    have hlow : Outputs .u ((2 ^ levelWidth k : Nat) - 1 - xl.toNat + if c = true then 1 else 0) (twosRef .u xl c) := by
      simpa only [DW.value_unsigned, minS, maxS, Int.zero_add] using ih .u xl c
    have hcarry := hlow.carry (levelWidth_pos k) (DW.toNat_lt _) (by split <;> omega)
    have hsplit : minS (levelWidth (k + 1)) sg + maxS (levelWidth (k + 1)) sg - (DW.pair xh xl).value sg +
        (if c = true then 1 else 0) = (minS (levelWidth k) sg + maxS (levelWidth k) sg - xh.value sg +
          if (twosRef .u xl c).2 = true then 1 else 0) * (2 ^ levelWidth k : Nat) + (twosRef .u xl c).1.toNat := by
      rw [DW.value_pair, levelWidth_succ, minS_add (levelWidth_pos k), maxS_add (levelWidth_pos k)]
      linear_combination hcarry
    rw [hsplit]
    exact outputs_pair (ih sg xh (twosRef .u xl c).2) (twosRef .u xl c).1

/-! ### NOT and NEG -/

theorem exec_not {s : State} {ra : Reg} {a : BitVec s.cfg.width} (rd : Reg) (ha : Holds s ra a) :
    exec (.not rd ra) s = .next ((s.writeV rd (~~~a)).setOV false) := by
  simp [exec, execNot, readV_of_holds ha]

theorem exec_neg {s : State} {ra : Reg} {a : BitVec s.cfg.width} (sg : Sign) (rd : Reg) (ha : Holds s ra a) :
    exec (.neg sg rd ra) s =
      .next ((s.writeV rd (bits s.cfg.width (-(val .u a)))).setOV (negOverflow sg a)) := by
  simp [exec, execNeg, readV_of_holds ha]

/-- NOT writes the complement, which is in range, as the result of an overflow-reporting command (R230). -/
theorem writeResult_not (s : State) (rd : Reg) (a : BitVec s.cfg.width) :
    (s.writeV rd (~~~a)).setOV false = s.writeResult .u rd (val .u (~~~a)) := by
  rw [State.writeResult, bits_val, overflow_eq_false_iff.2 (rep_val .u (~~~a))]

/-- The successor of the complement is out of range exactly for the least operand (R231). -/
theorem overflow_not_add_one {N : Nat} (hN : 0 < N) (sg : Sign) (a : BitVec N) :
    overflow N sg (val sg (~~~a) + 1) = negOverflow sg a := by
  obtain ⟨hlo, hhi⟩ := rep_iff.1 (rep_val sg a)
  have hmin : val sg (bits N (minS N sg)) = minS N sg := val_bits hN (rep_iff.2 ⟨Int.le_refl _, by omega⟩)
  rw [Bool.eq_iff_iff, overflow_iff, val_not hN, negOverflow, beq_iff_eq, ← (val_injective sg).eq_iff, hmin]
  omega

/-- NEG writes the complement plus 1, as the result of an overflow-reporting command (R231). -/
theorem writeResult_neg (s : State) (sg : Sign) (rd : Reg) (a : BitVec s.cfg.width) :
    (s.writeV rd (bits s.cfg.width (-(val .u a)))).setOV (negOverflow sg a) =
      s.writeResult sg rd (val sg (~~~a) + 1) := by
  have hneg : bits s.cfg.width (-(val .u a)) = bits s.cfg.width (val sg (~~~a) + 1) := by
    have hone : bits s.cfg.width 1 = 1#s.cfg.width := bits_natCast _ 1
    rw [bits_add_int, bits_val, hone, ← BitVec.neg_eq_not_add, bits, BitVec.ofInt_neg, ← bits, bits_val]
  rw [State.writeResult, hneg, overflow_not_add_one (width_pos s.cfg)]

/-! ### The commands and the datapaths -/

theorem addRef_ofNat {k : Nat} (sg : Sign) (a b : BitVec (levelWidth k)) :
    Outputs sg (val sg a + val sg b) (addRef sg (DW.ofNat k a.toNat) (DW.ofNat k b.toNat)) := by
  simpa only [DW.value_ofNat] using addRef_outputs sg (DW.ofNat k a.toNat) (DW.ofNat k b.toNat)

theorem subRef_ofNat {k : Nat} (sg : Sign) (a b : BitVec (levelWidth k)) :
    Outputs sg (val sg a - val sg b) (subRef sg (DW.ofNat k a.toNat) (DW.ofNat k b.toNat)) := by
  simpa only [DW.value_ofNat] using subRef_outputs sg (DW.ofNat k a.toNat) (DW.ofNat k b.toNat)

theorem twosRef_ofNat {k : Nat} (sg : Sign) (a : BitVec (levelWidth k)) (c : Bool) :
    Outputs sg (val sg (~~~a) + if c = true then 1 else 0) (twosRef sg (DW.ofNat k a.toNat) c) := by
  simpa only [DW.value_ofNat, val_not (levelWidth_pos k)] using twosRef_outputs sg (DW.ofNat k a.toNat) c

/-- Settles O55: at `levels + 1` levels a double-width integer has the register's width, and each datapath computes the
integer with which its command ends. -/
theorem halfWidthDatapathsRefine : Obligations.HalfWidthDatapathsRefine := by
  unfold Obligations.HalfWidthDatapathsRefine
  rintro N k sg rd ra rb s a b - rfl ha hb
  obtain rfl : s.cfg.width = N := ha.1
  refine ⟨?_, ?_, ?_, ?_⟩ <;> rintro r rfl
  · exact (addRef_ofNat (k := s.cfg.levels + 1) sg a b).writes (exec_add sg rd ha hb)
  · exact (subRef_ofNat (k := s.cfg.levels + 1) sg a b).writes (exec_sub sg rd ha hb)
  · refine (twosRef_ofNat (k := s.cfg.levels + 1) .u a false).writes ?_
    rw [exec_not rd ha, writeResult_not, ← Int.add_zero (val .u (~~~a))]
    rfl
  · refine (twosRef_ofNat (k := s.cfg.levels + 1) sg a true).writes ?_
    rw [exec_neg sg rd ha, writeResult_neg]
    rfl

end Sys2Proof.Machine

/-! ## The digit ripples

ADDD and SUBD word by word (R135, R137): word 0 takes the Digit, and what it carries or borrows ripples through the
higher words. -/

namespace Sys2Proof.Machine

/-! ### One word of the ripple -/

/-- The new word is the word with what it was given, modulo 2^64 (R135). -/
theorem rippleWord_fst (x : Word) {r : Int} (hr : -1 ≤ r ∧ r ≤ 1) : (rippleWord x r).1 = x + bits 64 r := by
  obtain rfl | rfl | rfl : r = 0 ∨ r = 1 ∨ r = -1 := by omega
  · exact (BitVec.add_zero x).symm
  · exact (bits_add_int 64 x.toNat 1).trans (congrArg (· + bits 64 1) (bits_val .u x))
  · exact (bits_add_int 64 x.toNat (-1)).trans (congrArg (· + bits 64 (-1)) (bits_val .u x))

/-- One word of the ripple with what it passes on is the word with what it was given (R135). -/
theorem rippleWord_spec (x : Word) {r : Int} (hr : -1 ≤ r ∧ r ≤ 1) :
    (rippleWord x r).2 * (2 ^ 64 : Nat) + (rippleWord x r).1.toNat = x.toNat + r ∧
      -1 ≤ (rippleWord x r).2 ∧ (rippleWord x r).2 ≤ 1 := by
  have hones : x = BitVec.allOnes 64 ↔ x.toNat = 2 ^ 64 - 1 := BitVec.toNat_inj.symm
  have hzero : x = 0 ↔ x.toNat = 0 := BitVec.toNat_inj.symm
  have hx := x.isLt
  rw [rippleWord_fst x hr, BitVec.toNat_add]
  obtain rfl | rfl | rfl : r = 0 ∨ r = 1 ∨ r = -1 := by omega
  · have hbits : (bits 64 0).toNat = 0 := rfl
    have hout : (rippleWord x 0).2 = 0 := rfl
    omega
  · have hbits : (bits 64 1).toNat = 1 := rfl
    have hout : (rippleWord x 1).2 = if x.toNat = 2 ^ 64 - 1 then 1 else 0 := if_congr hones rfl rfl
    rw [hbits, hout]
    split <;> omega
  · have hbits : (bits 64 (-1)).toNat = 2 ^ 64 - 1 := rfl
    have hout : (rippleWord x (-1)).2 = if x.toNat = 0 then -1 else 0 := if_congr hzero rfl rfl
    rw [hbits, hout]
    split <;> omega

/-- The overflow test of the ripple is that of the top word in either reading (R135). -/
theorem rippleOverflow_rippleWord (sg : Sign) (x : Word) {r : Int} (hr : -1 ≤ r ∧ r ≤ 1) :
    rippleOverflow sg x r (rippleWord x r).2 = overflow 64 sg (val sg x + r) := by
  cases sg with
  | s => rfl
  | u =>
    obtain ⟨hsum, hout⟩ := rippleWord_spec x hr
    have hlt := (rippleWord x r).1.isLt
    rw [rippleOverflow, Bool.eq_iff_iff, overflow_iff, bne_iff_ne]
    simp only [minS, maxS, val]
    omega

/-! ### The ripple through the higher words -/

theorem wordsVal_cons (w : Word) (ws : List Word) : wordsVal (w :: ws) = wordsVal ws * 2 ^ 64 + w.toNat := by
  rw [wordsVal]
  omega

theorem wordsVal_singleton (w : Word) : wordsVal [w] = w.toNat := by
  rw [wordsVal_cons, wordsVal, Nat.zero_mul, Nat.zero_add]

theorem seqval_singleton (sg : Sign) (x : Word) : seqval [x] sg = val sg x := by
  have hx : BitVec.ofNat 64 (wordsVal [x]) = x := by
    rw [wordsVal_singleton, BitVec.ofNat_toNat, BitVec.setWidth_eq]
  exact congrArg (val sg) hx

/-- A sequence reads as its higher words, read in the same way, above its first word (R101). -/
theorem seqval_cons (sg : Sign) (x : Word) {xs : List Word} (hxs : xs ≠ []) :
    seqval (x :: xs) sg = seqval xs sg * (2 ^ 64 : Nat) + x.toNat := by
  have hlen : 0 < 64 * xs.length := Nat.mul_pos (by decide) (List.length_pos_iff.2 hxs)
  rw [seqval, wordsVal_cons, List.length_cons, Nat.mul_succ]
  exact val_append hlen sg _ x.isLt

/-- A first word that takes `d` and passes `q` on, below words that take `q`: together they take `d`. -/
theorem computes_cons {sg : Sign} {x w : Word} {xs ws : List Word} {q d : Int} {ov : Bool} (hxs : xs ≠ [])
    (hsum : q * (2 ^ 64 : Nat) + w.toNat = x.toNat + d)
    (hrest : Computes (64 * xs.length) sg (seqval xs sg + q) (wordsVal ws) ov) :
    Computes (64 * (x :: xs).length) sg (seqval (x :: xs) sg + d) (wordsVal (w :: ws)) ov := by
  have hlen : 0 < 64 * xs.length := Nat.mul_pos (by decide) (List.length_pos_iff.2 hxs)
  have hsplit : seqval (x :: xs) sg + d = (seqval xs sg + q) * (2 ^ 64 : Nat) + w.toNat := by
    rw [seqval_cons sg x hxs]
    linear_combination -hsum
  rw [hsplit, wordsVal_cons, List.length_cons, Nat.mul_succ]
  exact hrest.append hlen w.isLt

/-- The ripple adds what it is given to the sequence (R135), by induction on the words. -/
theorem ripple_computes (sg : Sign) {xs : List Word} (hxs : xs ≠ []) {r : Int} (hr : -1 ≤ r ∧ r ≤ 1) (d : Word) :
    Computes (64 * xs.length) sg (seqval xs sg + r) (wordsVal (ripple xs r).1)
      (rippleOverflow sg (xs.getLastD d) (ripple xs r).2.1 (ripple xs r).2.2) := by
  induction xs, r using ripple.induct with
  | case1 r => exact absurd rfl hxs
  | case2 x r =>
    have hword : (rippleWord x r).1 = bits 64 (val sg x + r) := by rw [rippleWord_fst x hr, bits_add_int, bits_val]
    have hc := computes_bits 64 sg (val sg x + r)
    rw [← hword, ← rippleOverflow_rippleWord sg x hr] at hc
    rw [ripple, wordsVal_singleton, seqval_singleton]
    exact hc
  | case3 x y ys r ih =>
    obtain ⟨hsum, hr'⟩ := rippleWord_spec x hr
    exact computes_cons (List.cons_ne_nil y ys) hsum (ih (List.cons_ne_nil y ys) hr')

/-! ### The digit datapaths -/

/-- A word read as signed is less by 2^64 where its top bit is 1 (R12). -/
theorem val_word_eq (sg : Sign) (w : Word) :
    val sg w = w.toNat - (if sg = .s ∧ w.msb = true then 1 else 0) * (2 ^ 64 : Nat) := by
  cases sg with
  | u => simp [val]
  | s =>
    rw [val, BitVec.toInt_eq_msb_cond]
    cases w.msb <;> simp

/-- The ADDD datapath adds the Digit: word 0 passes on its carry, less 1 for a negative Digit (R135). -/
theorem addDigitRef_computes (sg : Sign) (x : Word) {xs : List Word} (hxs : xs ≠ []) (w : Word) :
    Computes (64 * (x :: xs).length) sg (seqval (x :: xs) sg + val sg w) (wordsVal (addDigitRef sg (x :: xs) w).1)
      (addDigitRef sg (x :: xs) w).2 := by
  have hx := x.isLt
  have hw := w.isLt
  refine computes_cons hxs ?_ (ripple_computes sg hxs ?_ x)
  · rw [val_word_eq, BitVec.toNat_ofNat]
    split <;> split <;> omega
  · split <;> split <;> omega

/-- The SUBD datapath takes the Digit away: word 0 passes on its borrow, against 1 for a negative Digit (R137). -/
theorem subDigitRef_computes (sg : Sign) (x : Word) {xs : List Word} (hxs : xs ≠ []) (w : Word) :
    Computes (64 * (x :: xs).length) sg (seqval (x :: xs) sg - val sg w) (wordsVal (subDigitRef sg (x :: xs) w).1)
      (subDigitRef sg (x :: xs) w).2 := by
  have hx := x.isLt
  have hw := w.isLt
  rw [Int.sub_eq_add_neg]
  refine computes_cons hxs ?_ (ripple_computes sg hxs ?_ x)
  · rw [val_word_eq, BitVec.toNat_sub]
    split <;> split <;> omega
  · split <;> split <;> omega

/-- The words of a register are a first word and others, at least one (R6, R7). -/
theorem exists_toWords_eq_cons (c : Config) (v : Nat) : ∃ x xs, toWords c.words v = x :: xs ∧ xs ≠ [] := by
  have hlen := toWords_length c.words v
  have htwo := width_gt_word c
  rw [width_eq] at htwo
  cases h : toWords c.words v with
  | nil =>
    rw [h, List.length_nil] at hlen
    omega
  | cons x xs =>
    refine ⟨x, xs, rfl, ?_⟩
    rintro rfl
    rw [h, List.length_singleton] at hlen
    omega

/-- Settles O56: each ripple computes the integer with which its command ends, and the words of `a` read as `a`
(`seqval_toWords`). -/
theorem digitRipplesRefine : Obligations.DigitRipplesRefine := by
  unfold Obligations.DigitRipplesRefine
  intro N sg rd ra rb s a w _ ha hw
  obtain rfl : s.cfg.width = N := ha.1
  obtain ⟨x, xs, hcons, hxs⟩ := exists_toWords_eq_cons s.cfg a.toNat
  have hvalue : seqval (x :: xs) sg = val sg a := hcons ▸ seqval_toWords sg a
  have hwidth : 64 * (x :: xs).length = s.cfg.width := by rw [← hcons, toWords_length, width_eq]
  have hadd := addDigitRef_computes sg x hxs w
  have hsub := subDigitRef_computes sg x hxs w
  rw [hvalue, hwidth, ← hcons] at hadd hsub
  refine ⟨?_, ?_⟩ <;> rintro r rfl
  · exact hadd.writes (exec_addd sg rd ha hw)
  · exact hsub.writes (exec_subd sg rd ha hw)

end Sys2Proof.Machine

/-! ## Multiplication

MUL, MULD, MULFW and MULFWD (R160 to R168). MUL and MULD write their exact product through `State.writeResult`, MULFW and
MULFWD through `State.writeProduct`. The product of an M-bit and a B-bit integer is in the range of M + B bits
(`rep_mul`), so its high part fits the B bits that are left above the low M bits (`rep_ediv`). -/

namespace Sys2Proof

/-! ### Words with equal destinations -/

/-- The decoder answers what the row that a word selects answers (R82). -/
theorem decode_eq_accept {r : Row} (hr : r ∈ rows) {c : CmdWord} (hs : r.selects (fieldsOf c) = true) :
    decode c = r.accept (fieldsOf c) := by
  unfold decode
  split
  next r' hfind =>
    have hs' : r'.selects (fieldsOf c) = true := by simpa using List.find?_some hfind
    rw [eq_of_selects (List.mem_of_find?_eq_some hfind) hr hs' hs]
  next hfind => exact absurd hs (by simpa using List.find?_eq_none.1 hfind r hr)

/-- A two-destination word with RD = RE is illegal for that reason (R80 (e)). -/
theorem decode_sameDestination {op : BitVec 6} {usesRC : Bool} {build : Fields → Instr}
    (hr : Row.deab op usesRC build ∈ rows) (s : Bool) (rd ra rb rc : Reg) :
    decode (wordR op s false rd rd ra rb (fieldIf usesRC rc)) = .error .sameDestination := by
  have hf := fieldsOf_wordR op s false rd rd ra rb (fieldIf usesRC rc)
  have hs : (Row.deab op usesRC build).selects (fieldsOf (wordR op s false rd rd ra rb (fieldIf usesRC rc))) = true := by
    simp [hf, Row.selects, Row.deab]
  rw [decode_eq_accept hr hs, hf]
  simp +contextual [Row.accept, Row.unusedZero, Row.deab, fieldIf]

theorem decode_mulfw_sameDestination (s : Bool) (rd ra rb : Reg) :
    decode (wordR 0x15#6 s false rd rd ra rb 0) = .error .sameDestination :=
  decode_sameDestination (usesRC := false) (build := fun f => .mulfw f.sg f.rd f.re f.ra f.rb)
    (by simp [rows, arithRows]) s rd ra rb 0

theorem decode_mulfwd_sameDestination (s : Bool) (rd ra rb : Reg) :
    decode (wordR 0x17#6 s false rd rd ra rb 0) = .error .sameDestination :=
  decode_sameDestination (usesRC := false) (build := fun f => .mulfwd f.sg f.rd f.re f.ra f.rb)
    (by simp [rows, arithRows]) s rd ra rb 0

end Sys2Proof

namespace Sys2Proof.Machine

/-! ### Products in range -/

/-- A natural number is out of the unsigned range exactly when it needs more bits (R160). -/
theorem overflow_unsigned_natCast (N p : Nat) : overflow N .u (p : Int) = decide (2 ^ N ≤ p) := by
  rw [Bool.eq_iff_iff, overflow_iff, decide_eq_true_iff]
  simp only [minS, maxS]
  omega

/-- Signed, an integer in range is at most 2^(M−1) in magnitude (R12). -/
theorem natAbs_le_of_rep {M : Nat} {v : Int} (h : rep M .s v = true) : v.natAbs ≤ 2 ^ (M - 1) := by
  obtain ⟨hlo, hhi⟩ := rep_iff.1 h
  simp only [minS, maxS] at hlo hhi
  omega

theorem rep_signed_of_natAbs_lt {M : Nat} {v : Int} (h : v.natAbs < 2 ^ (M - 1)) : rep M .s v = true := by
  rw [rep_iff]
  simp only [minS, maxS]
  omega

theorem rep_unsigned_natCast {M n : Nat} : rep M .u (n : Int) = true ↔ n < 2 ^ M := by
  rw [rep_iff]
  simp only [minS, maxS]
  omega

/-- Signed, a product in magnitude: the two sign bits leave it 2 bits short of the sum of the widths (R162). -/
theorem natAbs_mul_le {M B : Nat} {u v : Int} (hu : rep M .s u = true) (hv : rep B .s v = true) :
    u.natAbs * v.natAbs ≤ 2 ^ (M - 1 + (B - 1)) := by
  rw [pow_add]
  exact Nat.mul_le_mul (natAbs_le_of_rep hu) (natAbs_le_of_rep hv)

/-- A product is in the range of the sum of the widths (R163). -/
theorem rep_mul {M B : Nat} (hM : 0 < M) (hB : 0 < B) {sg : Sign} {u v : Int} (hu : rep M sg u = true)
    (hv : rep B sg v = true) : rep (M + B) sg (u * v) = true := by
  cases sg with
  | u =>
    lift u to Nat using (rep_iff.1 hu).1
    lift v to Nat using (rep_iff.1 hv).1
    rw [rep_unsigned_natCast] at hu hv
    rw [← Nat.cast_mul, rep_unsigned_natCast, pow_add]
    exact Nat.mul_lt_mul'' hu hv
  | s =>
    refine rep_signed_of_natAbs_lt ?_
    calc (u * v).natAbs = u.natAbs * v.natAbs := Int.natAbs_mul u v
      _ ≤ 2 ^ (M - 1 + (B - 1)) := natAbs_mul_le hu hv
      _ < 2 ^ (M + B - 1) := Nat.pow_lt_pow_right (by decide) (by omega)

/-! ### The high and the low part of an integer -/

theorem toNat_bits (N : Nat) (v : Int) : ((bits N v).toNat : Int) = v % (2 ^ N : Nat) := by
  have hpos : ((2 ^ N : Nat) : Int) ≠ 0 := by exact_mod_cast (Nat.two_pow_pos N).ne'
  rw [bits, BitVec.toNat_ofInt, Int.toNat_of_nonneg (Int.emod_nonneg v hpos)]

/-- An integer is its floor quotient above its pattern (R163). -/
theorem ediv_add_toNat_bits (N : Nat) (v : Int) : v = v / (2 ^ N : Nat) * (2 ^ N : Nat) + ((bits N v).toNat : Int) := by
  rw [toNat_bits, Int.ediv_mul_add_emod]

/-- The high part of an integer in range is in the range of the bits that are left (R8, R163). -/
theorem rep_ediv {B A : Nat} (hB : 0 < B) (sg : Sign) (v : Int) :
    rep B sg (v / (2 ^ A : Nat)) = rep (B + A) sg v := by
  rw [← rep_append hB (v / (2 ^ A : Nat)) (bits A v).isLt, ← ediv_add_toNat_bits]

/-- The high part of a product fits the width of the second factor (R163, R166). -/
theorem rep_mul_ediv {M B : Nat} (hM : 0 < M) (hB : 0 < B) (sg : Sign) (a : BitVec M) (b : BitVec B) :
    rep B sg (val sg a * val sg b / (2 ^ M : Nat)) = true := by
  rw [rep_ediv hB, Nat.add_comm]
  exact rep_mul hM hB (rep_val sg a) (rep_val sg b)

/-- A high pattern above a low one reads as the high one's reading above the low one's value (R8, R12). -/
theorem val_append_eq {B A : Nat} (hB : 0 < B) (sg : Sign) (h : BitVec B) (l : BitVec A) :
    val sg (h ++ l) = val sg h * (2 ^ A : Nat) + l.toNat := by
  have happ : h ++ l = BitVec.ofNat (B + A) (h.toNat * 2 ^ A + l.toNat) := by
    rw [← toNat_append_eq, BitVec.ofNat_toNat, BitVec.setWidth_eq]
  rw [happ, val_append hB sg _ l.isLt, BitVec.ofNat_toNat, BitVec.setWidth_eq]

theorem bits_mul_word (N : Nat) (sg : Sign) (a : BitVec N) (w : Word) :
    bits N (val sg a * val sg w) = a * extend N sg w := by
  have hmul : bits N (val sg a * val sg w) = bits N (val sg a) * bits N (val sg w) := BitVec.ofInt_mul ..
  rw [hmul, bits_val, bits_val_word]

/-- A value of one word's range extends to its own pattern (R12). -/
theorem extend_bits (N : Nat) {sg : Sign} {v : Int} (h : rep 64 sg v = true) : extend N sg (bits 64 v) = bits N v := by
  rw [← bits_val_word, val_bits (by decide) h]

/-! ### What the commands do -/

theorem exec_mul {s : State} {ra rb : Reg} {a b : BitVec s.cfg.width} (sg : Sign) (rd : Reg) (ha : Holds s ra a)
    (hb : Holds s rb b) : exec (.mul sg rd ra rb) s = .next (s.writeResult sg rd (val sg a * val sg b)) := by
  simp [exec, execMul, readVal_of_holds sg ha, readVal_of_holds sg hb]

theorem exec_muld {s : State} {ra rb : Reg} {a : BitVec s.cfg.width} {w : Word} (sg : Sign) (rd : Reg)
    (ha : Holds s ra a) (hw : HoldsWord s rb 0 w) :
    exec (.muld sg rd ra rb) s = .next (s.writeResult sg rd (val sg a * val sg w)) := by
  simp [exec, execMuld, readVal_of_holds sg ha, readDigit_of_holds sg hw]

/-- With two destinations MULFW makes no check before its reads (R163). -/
theorem exec_mulfw_eq_command {rd re : Reg} (hne : rd ≠ re) (sg : Sign) (ra rb : Reg) (s : State) :
    exec (.mulfw sg rd re ra rb) s = command (.mulfw sg rd re ra rb) s
      (readVal s sg ra >>= fun a => readVal s sg rb >>= fun b => .ok (s.writeProduct rd re (a * b))) := by
  simp [exec, execMulfw, bne_iff_ne.2 hne]

/-- With two destinations MULFWD makes no check before its reads (R166). -/
theorem exec_mulfwd_eq_command {rd re : Reg} (hne : rd ≠ re) (sg : Sign) (ra rb : Reg) (s : State) :
    exec (.mulfwd sg rd re ra rb) s = command (.mulfwd sg rd re ra rb) s
      (readVal s sg ra >>= fun a => readDigit s sg rb >>= fun d => .ok (s.writeProduct rd re (a * d))) := by
  simp [exec, execMulfwd, bne_iff_ne.2 hne]

theorem exec_mulfw {s : State} {rd re ra rb : Reg} {a b : BitVec s.cfg.width} (sg : Sign) (hne : rd ≠ re)
    (ha : Holds s ra a) (hb : Holds s rb b) :
    exec (.mulfw sg rd re ra rb) s = .next (s.writeProduct rd re (val sg a * val sg b)) := by
  simp [exec_mulfw_eq_command hne, readVal_of_holds sg ha, readVal_of_holds sg hb]

theorem exec_mulfwd {s : State} {rd re ra rb : Reg} {a : BitVec s.cfg.width} {w : Word} (sg : Sign) (hne : rd ≠ re)
    (ha : Holds s ra a) (hw : HoldsWord s rb 0 w) :
    exec (.mulfwd sg rd re ra rb) s = .next (s.writeProduct rd re (val sg a * val sg w)) := by
  simp [exec_mulfwd_eq_command hne, readVal_of_holds sg ha, readDigit_of_holds sg hw]

/-- A command that ends in `State.writeProduct` writes the low and the high pattern of its exact product and keeps OV. -/
theorem writesTwo_of_writeProduct {i : Instr} {s : State} {rd re : Reg} {P : Int} {y z : BitVec s.cfg.width}
    (hne : rd ≠ re) (h : exec i s = .next (s.writeProduct rd re P)) (hy : bits s.cfg.width P = y)
    (hz : bits s.cfg.width (P / (2 ^ s.cfg.width : Nat)) = z) : WritesTwo i s rd re y z s.ov := by
  obtain ⟨hlow, hhigh, hframe, hother⟩ := writeProduct_spec s hne P
  exact ⟨_, h, hy ▸ hlow, hz ▸ hhigh, hframe, hother⟩

/-! ### MUL, MULD, MULFW and MULFWD -/

/-- Settles O28: the pattern of the exact product is the product of the patterns (`bits_mul`, `bits_mul_word`), and
unsigned it is out of range exactly when it needs more than N bits. -/
theorem multiplyTruncated : Obligations.MultiplyTruncated := by
  unfold Obligations.MultiplyTruncated
  intro N sg rd ra rb s _
  refine ⟨decode_of_encode_eq (i := .mul sg rd ra rb) rfl rfl, decode_of_encode_eq (i := .muld sg rd ra rb) rfl rfl,
    fun a b ha hb => ?_, fun a w ha hw => ?_, faults_of_invalid rfl, faults_of_invalid_digit rfl⟩
  all_goals obtain rfl : s.cfg.width = N := ha.1
  · exact ⟨writes_of_writeResult (exec_mul sg rd ha hb) (bits_mul sg a b),
      overflow_unsigned_natCast _ (a.toNat * b.toNat)⟩
  · exact writes_of_writeResult (exec_muld sg rd ha hw) (bits_mul_word _ sg a w)

/-- Settles O29: the high half is in the range of N bits (`rep_mul_ediv`), so it reads as the floor quotient. -/
theorem multiplyFullWidth : Obligations.MultiplyFullWidth := by
  unfold Obligations.MultiplyFullWidth
  intro N sg rd re ra rb s _
  refine ⟨fun hne => decode_of_encode_eq (i := .mulfw sg rd re ra rb) rfl (bne_iff_ne.2 hne),
    decode_mulfw_sameDestination sg.bit rd ra rb, fun a b hne ha hb => ?_,
    fun hne => faults_of_invalid (exec_mulfw_eq_command hne sg ra rb s)⟩
  obtain rfl : s.cfg.width = N := ha.1
  have hpos := width_pos s.cfg
  have hhigh := val_bits hpos (rep_mul_ediv hpos hpos sg a b)
  refine ⟨_, writesTwo_of_writeProduct hne (exec_mulfw sg hne ha hb) (bits_mul sg a b) rfl, hhigh, ?_⟩
  rw [hhigh, ← bits_mul sg a b]
  exact ediv_add_toNat_bits _ _

/-- Settles O30: the high part is in the range of one word (`rep_mul_ediv`), and the word's extension is its pattern at N
bits (`extend_bits`). -/
theorem multiplyFullWidthByDigit : Obligations.MultiplyFullWidthByDigit := by
  unfold Obligations.MultiplyFullWidthByDigit
  intro N sg rd re ra rb s _
  refine ⟨fun hne => decode_of_encode_eq (i := .mulfwd sg rd re ra rb) rfl (bne_iff_ne.2 hne),
    decode_mulfwd_sameDestination sg.bit rd ra rb, fun a w hne ha hw => ?_,
    fun hne => faults_of_invalid_digit (exec_mulfwd_eq_command hne sg ra rb s)⟩
  obtain rfl : s.cfg.width = N := ha.1
  have hfits := rep_mul_ediv (width_pos s.cfg) (by decide) sg a w
  have hhigh := val_bits (by decide) hfits
  refine ⟨_, writesTwo_of_writeProduct hne (exec_mulfwd sg hne ha hw) (bits_mul_word _ sg a w)
    (extend_bits _ hfits).symm, hhigh, ?_⟩
  rw [hhigh, ← bits_mul_word]
  exact ediv_add_toNat_bits _ _

/-- Settles O49: the two halves put together read as the product (`val_append_eq`), and both commands write the product's
low pattern. -/
theorem multiplicationIsExact : Obligations.MultiplicationIsExact := by
  unfold Obligations.MultiplicationIsExact
  intro N sg rd re ra rb s a b _ hne ha hb
  obtain rfl : s.cfg.width = N := ha.1
  have hpos := width_pos s.cfg
  obtain ⟨hlow, hhigh, -, -⟩ := writeProduct_spec s hne (val sg a * val sg b)
  refine ⟨_, _, _, _, exec_mulfw sg hne ha hb, hlow, hhigh, ?_, exec_mul sg rd ha hb,
    (writeResult_spec s sg rd _).1⟩
  rw [val_append_eq hpos, val_bits hpos (rep_mul_ediv hpos hpos sg a b)]
  exact (ediv_add_toNat_bits _ _).symm

end Sys2Proof.Machine

/-! ## The multiplier tree

The four-product datapath and the three-product one (R161, R164) are put together from the same sums of half-width
products (`mul_eq_of_products`). The signed wrappers (R162) are the product's sign above the product of the magnitudes
(`mul_eq_sign_magnitude`). -/

namespace Sys2Proof.Machine

/-! ### The unsigned datapaths -/

/-- An unsigned sum is its carry above what the adder gives (R131). -/
theorem addRef_toNat {k : Nat} (x y : DW k) :
    x.toNat + y.toNat = (addRef .u x y).2.toNat * 2 ^ levelWidth k + (addRef .u x y).1.toNat := by
  have hx := x.toNat_lt
  have hy := y.toNat_lt
  have hsum : Outputs .u (x.toNat + y.toNat) (addRef .u x y) := by
    simpa only [DW.value_unsigned] using addRef_outputs .u x y
  have hcarry := hsum.carry (levelWidth_pos k) (DW.toNat_lt _) (by omega)
  zify
  rw [hcarry]
  cases (addRef .u x y).2 <;> rfl

/-- Two additions in a row: the sum of three is the two carries above what the second gives (R161, R164). -/
theorem addRef_addRef_toNat {k : Nat} {x y z : DW k} {r q : DW k × Bool} (hr : r = addRef .u x y)
    (hq : q = addRef .u r.1 z) :
    x.toNat + y.toNat + z.toNat = (r.2.toNat + q.2.toNat) * 2 ^ levelWidth k + q.1.toNat := by
  subst hr hq
  rw [addRef_toNat x y, Nat.add_assoc, addRef_toNat _ z, Nat.add_mul, Nat.add_assoc]

/-- The pair of halves `p` is the full-width product of `x` and `y` (R164). -/
def FullProduct {k : Nat} (p : DW k × DW k) (x y : DW k) : Prop :=
  p.1.toNat * 2 ^ levelWidth k + p.2.toNat = x.toNat * y.toNat

/-- What the datapaths have in common: the low half of a product, and all that stands above it (R161, R164). -/
theorem mul_eq_of_products {k : Nat} {a1 a0 b1 b0 : DW k} {p00 p01 p10 : DW k × DW k} {h1 h2 : DW k × Bool}
    (h00 : FullProduct p00 a0 b0) (h01 : FullProduct p01 a0 b1) (h10 : FullProduct p10 a1 b0)
    (hh1 : h1 = addRef .u p00.1 p01.2) (hh2 : h2 = addRef .u h1.1 p10.2) :
    (DW.pair a1 a0).toNat * (DW.pair b1 b0).toNat =
      (a1.toNat * b1.toNat + p01.1.toNat + p10.1.toNat + (h1.2.toNat + h2.2.toNat)) * 2 ^ levelWidth (k + 1) +
        (DW.pair h2.1 p00.2).toNat := by
  have hmid := addRef_addRef_toNat hh1 hh2
  rw [FullProduct] at h00 h01 h10
  rw [levelWidth_succ, pow_add, DW.toNat_pair, DW.toNat_pair, DW.toNat_pair]
  generalize 2 ^ levelWidth k = B at *
  zify at *
  linear_combination B * hmid - h00 - B * h01 - B * h10

theorem carries_pair (b c : Bool) : carries [b, c] = b.toNat + c.toNat := by cases b <;> cases c <;> rfl

theorem carries_triple (b c d : Bool) : carries [b, c, d] = b.toNat + c.toNat + d.toNat := by
  cases b <;> cases c <;> cases d <;> rfl

theorem carries_pair_lt (k : Nat) (b c : Bool) : carries [b, c] < 2 ^ levelWidth k := by
  have hpow := Nat.pow_le_pow_right (n := 2) (by decide) (two_le_levelWidth k)
  have hb := b.toNat_lt
  have hc := c.toNat_lt
  rw [carries_pair]
  omega

/-- The high half of a product: the product of the high halves, and what stands beside it (R164). -/
theorem high_of_products {k c : Nat} {a1 b1 : DW k} {p11 p01 p10 : DW k × DW k} {t1 t2 t3 : DW k × Bool}
    (h11 : FullProduct p11 a1 b1) (hc : c < 2 ^ levelWidth k) (ht1 : t1 = addRef .u p11.2 p01.1)
    (ht2 : t2 = addRef .u t1.1 p10.1) (ht3 : t3 = addRef .u t2.1 (DW.ofNat k c)) :
    a1.toNat * b1.toNat + p01.1.toNat + p10.1.toNat + c =
      (p11.1.toNat + carries [t1.2, t2.2, t3.2]) * 2 ^ levelWidth k + t3.1.toNat := by
  have htop := addRef_addRef_toNat ht1 ht2
  have hcarry := addRef_toNat t2.1 (DW.ofNat k c)
  rw [← ht3, DW.toNat_ofNat, Nat.mod_eq_of_lt hc] at hcarry
  rw [FullProduct] at h11
  rw [carries_triple]
  generalize 2 ^ levelWidth k = B at *
  zify at *
  linear_combination htop + hcarry - h11

theorem lt_of_mul_add_lt {M H l : Nat} (h : H * M + l < M * M) : H < M :=
  Nat.lt_of_mul_lt_mul_right (a := M) (Nat.lt_of_le_of_lt (Nat.le_add_right _ l) h)

/-- A product leaves room for what stands above its low half (R164). -/
theorem high_lt_of_mul_eq {k H l : Nat} {x y : DW k} (h : x.toNat * y.toNat = H * 2 ^ levelWidth k + l) :
    H < 2 ^ levelWidth k := lt_of_mul_add_lt (h ▸ Nat.mul_lt_mul'' x.toNat_lt y.toNat_lt)

/-- A high half that is a number of half the width above a double-width integer is their pair (R8). -/
theorem toNat_pair_ofNat {k u : Nat} {l : DW k} (h : u * 2 ^ levelWidth k + l.toNat < 2 ^ levelWidth (k + 1)) :
    (DW.pair (DW.ofNat k u) l).toNat = u * 2 ^ levelWidth k + l.toNat := by
  rw [levelWidth_succ, pow_add] at h
  rw [DW.toNat_pair, DW.toNat_ofNat, Nat.mod_eq_of_lt (lt_of_mul_add_lt h)]

/-- The four-product datapath gives the exact product (R164), by induction on the levels above the native word. -/
theorem umulfwRef_fullProduct {k : Nat} (x y : DW k) : FullProduct (umulfwRef x y) x y := by
  induction k with
  | zero =>
    cases x with | word x =>
    cases y with | word y =>
    have hlt : x.toNat * y.toNat < 2 ^ 64 * 2 ^ 64 := Nat.mul_lt_mul'' x.isLt y.isLt
    simp only [FullProduct, umulfwRef, DW.toNat_word, BitVec.toNat_ofNat, levelWidth]
    omega
  | succ k ih =>
    cases x with | pair a1 a0 =>
    cases y with | pair b1 b0 =>
    have hprod := mul_eq_of_products (ih a0 b0) (ih a0 b1) (ih a1 b0) rfl rfl
    rw [← carries_pair, high_of_products (ih a1 b1) (carries_pair_lt k _ _) rfl rfl rfl] at hprod
    rw [FullProduct, hprod, ← toNat_pair_ofNat (high_lt_of_mul_eq hprod)]
    rfl

theorem le_mul_add_iff {M H l : Nat} (hl : l < M) : M ≤ H * M + l ↔ H ≠ 0 := by
  refine ⟨?_, fun hH => Nat.le_add_right_of_le (Nat.le_mul_of_pos_left M (Nat.pos_of_ne_zero hH))⟩
  rintro h rfl
  omega

/-- The three-product datapath gives the truncated product and its overflow (R161). -/
theorem umulRef_spec {k : Nat} (x y : DW k) :
    (umulRef x y).1.toNat = x.toNat * y.toNat % 2 ^ levelWidth k ∧
      (umulRef x y).2 = decide (2 ^ levelWidth k ≤ x.toNat * y.toNat) := by
  cases k with
  | zero =>
    cases x with | word x =>
    cases y with | word y =>
    exact ⟨rfl, rfl⟩
  | succ k =>
    cases x with | pair a1 a0 =>
    cases y with | pair b1 b0 =>
    have hprod := mul_eq_of_products (umulfwRef_fullProduct a0 b0) (umulfwRef_fullProduct a0 b1)
      (umulfwRef_fullProduct a1 b0) rfl rfl
    rw [hprod]
    constructor
    · rw [Nat.mul_comm, Nat.mul_add_mod, Nat.mod_eq_of_lt (DW.toNat_lt _)]
      rfl
    · rw [Bool.eq_iff_iff, decide_eq_true_iff, le_mul_add_iff (DW.toNat_lt _)]
      simp only [umulRef, Bool.or_eq_true, Bool.and_eq_true, bne_iff_ne, ne_eq, Nat.add_eq_zero_iff, Nat.mul_eq_zero,
        not_and_or, not_or, Bool.toNat_eq_zero, Bool.not_eq_false, or_assoc]

/-! ### Sign and magnitude -/

/-- A product is the product of the magnitudes, negated where the signs differ (R162). -/
theorem mul_eq_sign_magnitude (a b : Int) :
    a * b = if (decide (a < 0) != decide (b < 0)) = true then -((a.natAbs * b.natAbs : Nat) : Int)
      else ((a.natAbs * b.natAbs : Nat) : Int) := by
  by_cases ha : a < 0 <;> by_cases hb : b < 0 <;> simp [ha, hb, abs_of_neg, abs_of_nonneg, not_lt.1]

theorem natAbs_val_lt {M : Nat} (hM : 0 < M) (sg : Sign) (x : BitVec M) : (val sg x).natAbs < 2 ^ M := by
  cases sg with
  | u => exact x.isLt
  | s =>
    have hhalf : 2 ^ (M - 1) < 2 ^ M := Nat.pow_lt_pow_right (by decide) (by omega)
    exact Nat.lt_of_le_of_lt (natAbs_le_of_rep (rep_val .s x)) hhalf

theorem DW.toNat_ofNat_of_lt {k n : Nat} (h : n < 2 ^ levelWidth k) : (DW.ofNat k n).toNat = n := by
  rw [DW.toNat_ofNat, Nat.mod_eq_of_lt h]

theorem bits_natCast_mod (M m : Nat) : bits M ((m % 2 ^ M : Nat) : Int) = bits M m := by
  rw [bits_eq_iff_emod, Int.natCast_emod, Int.emod_emod]

theorem bits_neg_int (N : Nat) (v : Int) : bits N (-v) = -bits N v := BitVec.ofInt_neg

/-- A pattern depends on the magnitude modulo 2^M only, whatever the sign (R162). -/
theorem bits_mod_magnitude (M m : Nat) (neg : Bool) :
    (if neg = true then bits M (-((m % 2 ^ M : Nat) : Int)) else bits M ((m % 2 ^ M : Nat) : Int)) =
      bits M (if neg = true then -(m : Int) else m) := by
  cases neg <;> simp only [bits_neg_int, bits_natCast_mod, if_true, Bool.false_eq_true, if_false]

/-- The overflow test of the signed wrapper: the magnitude's own overflow, or a magnitude beyond the maximum, or for a
negative result beyond the minimum (R162). -/
theorem overflow_signed_magnitude {M : Nat} (hM : 0 < M) (m : Nat) (neg : Bool) :
    overflow M .s (if neg = true then -(m : Int) else m) =
      (decide (2 ^ M ≤ m) || (!neg && decide (2 ^ (M - 1) - 1 < m % 2 ^ M)) ||
        (neg && decide (2 ^ (M - 1) < m % 2 ^ M))) := by
  have hpow : 2 ^ M = 2 ^ (M - 1) * 2 := (Nat.pow_pred_mul hM).symm
  have hpos : 0 < 2 ^ (M - 1) := Nat.two_pow_pos _
  rw [Bool.eq_iff_iff, overflow_iff, hpow]
  simp only [minS, maxS, Bool.or_eq_true, Bool.and_eq_true, decide_eq_true_iff]
  generalize 2 ^ (M - 1) = half at *
  have hmod : m < half * 2 → m % (half * 2) = m := Nat.mod_eq_of_lt
  cases neg with
  | false => simp only [Bool.false_eq_true, if_false, Bool.not_false, true_and, false_and, or_false]; omega
  | true => simp only [if_true, Bool.not_true, Bool.false_eq_true, true_and, false_and, or_false]; omega

/-- The signed wrapper gives the pattern of the product and its overflow (R162). -/
theorem smulRef_eq {k : Nat} (a b : BitVec (levelWidth k)) : smulRef k a b =
    (bits (levelWidth k) (val .s a * val .s b), overflow (levelWidth k) .s (val .s a * val .s b)) := by
  have ha := DW.toNat_ofNat_of_lt (natAbs_val_lt (levelWidth_pos k) .s a)
  have hb := DW.toNat_ofNat_of_lt (natAbs_val_lt (levelWidth_pos k) .s b)
  obtain ⟨hlow, hov⟩ := umulRef_spec (DW.ofNat k a.toInt.natAbs) (DW.ofNat k b.toInt.natAbs)
  rw [val] at ha hb
  rw [ha, hb] at hlow hov
  rw [val, val, mul_eq_sign_magnitude, overflow_signed_magnitude (levelWidth_pos k), ← bits_mod_magnitude, ← hlow, ← hov]
  rfl

/-! ### The full-width signed wrapper -/

@[simp] theorem DW.pair_high_low {k : Nat} (x : DW (k + 1)) : DW.pair x.high x.low = x := by cases x; rfl

theorem outputs_natCast {k m : Nat} {sg : Sign} {x : DW k} (hx : x.toNat = m) (hm : rep (levelWidth k) sg m = true) :
    Outputs sg m (x, false) :=
  ⟨by rw [hx, bits_natCast], (overflow_eq_false_iff.2 hm).symm⟩

/-- A double-width integer whose unsigned value is in the range reads as that value (R12). -/
theorem DW.value_eq_natCast {k m : Nat} {sg : Sign} {x : DW k} (hx : x.toNat = m)
    (hm : rep (levelWidth k) sg m = true) : x.value sg = m := by
  rw [DW.value, hx, ← bits_natCast, val_bits (levelWidth_pos k) hm]

/-- With carry 1 the signed negator negates (R232). -/
theorem twosRef_negates {k : Nat} (x : DW k) : Outputs .s (-x.value .s) (twosRef .s x true) := by
  have hneg : minS (levelWidth k) .s + maxS (levelWidth k) .s - x.value .s + 1 = -x.value .s := by
    simp only [minS, maxS]
    omega
  rw [← hneg]
  exact twosRef_outputs .s x true

/-- The negator behind the full-width product: a magnitude in range, negated or left as it is (R162). -/
theorem outputs_sign_magnitude {k m : Nat} {x : DW k} (neg : Bool) (hx : x.toNat = m)
    (hm : rep (levelWidth k) .s m = true) :
    Outputs .s (if neg = true then -(m : Int) else m) (if neg = true then twosRef .s x true else (x, false)) := by
  cases neg with
  | false => exact outputs_natCast hx hm
  | true =>
    rw [← DW.value_eq_natCast hx hm]
    exact twosRef_negates x

/-- The full-width signed wrapper gives the pair of the product and no overflow report (R162): the magnitudes' product is
in the signed range of the pair. -/
theorem smulfwRef_outputs {k : Nat} (a b : BitVec (levelWidth k)) : Outputs .s (val .s a * val .s b)
    (DW.pair (smulfwRef k a b).1 (smulfwRef k a b).2.1, (smulfwRef k a b).2.2) := by
  have hW := levelWidth_pos k
  have hfull := umulfwRef_fullProduct (DW.ofNat k (val .s a).natAbs) (DW.ofNat k (val .s b).natAbs)
  rw [FullProduct, DW.toNat_ofNat_of_lt (natAbs_val_lt hW .s a), DW.toNat_ofNat_of_lt (natAbs_val_lt hW .s b),
    ← DW.toNat_pair] at hfull
  have hrep : rep (levelWidth (k + 1)) .s (((val .s a).natAbs * (val .s b).natAbs : Nat) : Int) = true := by
    refine rep_signed_of_natAbs_lt ?_
    rw [Int.natAbs_natCast, levelWidth_succ]
    exact Nat.lt_of_le_of_lt (natAbs_mul_le (rep_val .s a) (rep_val .s b)) (Nat.pow_lt_pow_right (by decide) (by omega))
  have hsigned := outputs_sign_magnitude (decide (val .s a < 0) != decide (val .s b < 0)) hfull hrep
  rw [← mul_eq_sign_magnitude] at hsigned
  simp only [smulfwRef, DW.pair_high_low]
  exact hsigned

/-- No product overflows twice its width (R162). -/
theorem smulfwRef_no_overflow {k : Nat} (a b : BitVec (levelWidth k)) : (smulfwRef k a b).2.2 = false := by
  have hrep := rep_mul (levelWidth_pos k) (levelWidth_pos k) (rep_val .s a) (rep_val .s b)
  rw [← levelWidth_succ] at hrep
  exact (smulfwRef_outputs a b).flag.trans (overflow_eq_false_iff.2 hrep)

/-! ### The commands and the datapaths -/

/-- The parts of an integer's pattern are the patterns of its floor quotient and of the integer (R8, R163). -/
theorem bits_parts {M B A h l : Nat} {P : Int} (hM : M = B + A) (hl : l < 2 ^ A)
    (hp : BitVec.ofNat M (h * 2 ^ A + l) = bits M P) :
    BitVec.ofNat A l = bits A P ∧ BitVec.ofNat B h = bits B (P / (2 ^ A : Nat)) := by
  subst hM
  have hpos : ((2 ^ A : Nat) : Int) ≠ 0 := by exact_mod_cast (Nat.two_pow_pos A).ne'
  rw [← bits_natCast, bits_eq_iff_emod] at hp
  obtain ⟨q, hq⟩ : ((2 ^ (B + A) : Nat) : Int) ∣ P - ((h * 2 ^ A + l : Nat) : Int) := Int.ModEq.dvd hp
  have hP : P = l + (h + (2 ^ B : Nat) * q) * (2 ^ A : Nat) := by
    rw [pow_add] at hq
    push_cast at hq ⊢
    linear_combination hq
  constructor
  · rw [← bits_natCast, bits_eq_iff_emod, hP, Int.add_mul_emod_self_right]
  · rw [← bits_natCast, bits_eq_iff_emod, hP, Int.add_mul_ediv_right _ _ hpos,
      Int.ediv_eq_zero_of_lt (Int.natCast_nonneg l) (by exact_mod_cast hl), Int.zero_add, Int.add_mul_emod_self_left]

/-- A command writes the two halves that a datapath computes when it ends with the product that the datapath computes. -/
theorem writesTwo_of_outputs {i : Instr} {s : State} {rd re : Reg} {sg : Sign} {P : Int} {high low : DW (s.cfg.levels + 1)}
    {ov : Bool} (hne : rd ≠ re) (hexec : exec i s = .next (s.writeProduct rd re P))
    (hout : Outputs sg P (DW.pair high low, ov)) :
    WritesTwo i s rd re (BitVec.ofNat s.cfg.width low.toNat) (BitVec.ofNat s.cfg.width high.toNat) s.ov := by
  obtain ⟨hlow, hhigh⟩ := bits_parts (levelWidth_succ _) low.toNat_lt hout.result
  exact writesTwo_of_writeProduct hne hexec hlow.symm hhigh.symm

theorem umulRef_outputs {k : Nat} (a b : BitVec (levelWidth k)) :
    Outputs .u (val .u a * val .u b) (umulRef (DW.ofNat k a.toNat) (DW.ofNat k b.toNat)) := by
  obtain ⟨hlow, hov⟩ := umulRef_spec (DW.ofNat k a.toNat) (DW.ofNat k b.toNat)
  rw [DW.toNat_ofNat_of_lt a.isLt, DW.toNat_ofNat_of_lt b.isLt] at hlow hov
  refine ⟨?_, hov.trans (overflow_unsigned_natCast _ _).symm⟩
  rw [hlow, ← bits_natCast, bits_natCast_mod]
  rfl

theorem umulfwRef_outputs {k : Nat} (a b : BitVec (levelWidth k)) {p : DW k × DW k}
    (hp : p = umulfwRef (DW.ofNat k a.toNat) (DW.ofNat k b.toNat)) :
    Outputs .u (val .u a * val .u b) (DW.pair p.1 p.2, false) := by
  have hfull := umulfwRef_fullProduct (DW.ofNat k a.toNat) (DW.ofNat k b.toNat)
  rw [← hp, FullProduct, DW.toNat_ofNat_of_lt a.isLt, DW.toNat_ofNat_of_lt b.isLt, ← DW.toNat_pair] at hfull
  refine outputs_natCast hfull ?_
  rw [rep_unsigned_natCast, ← hfull]
  exact DW.toNat_lt _

/-- Settles O57: at `levels + 1` levels a double-width integer has the register's width, and each datapath computes the
product with which its command ends. -/
theorem multiplierTreeRefines : Obligations.MultiplierTreeRefines := by
  unfold Obligations.MultiplierTreeRefines
  refine ⟨fun k x y => ⟨umulfwRef_fullProduct x y, umulRef_spec x y⟩, ?_⟩
  rintro k rd re ra rb s a b - rfl ha hb
  refine ⟨?_, ?_, ?_, ?_⟩
  · rintro r rfl
    exact (umulRef_outputs a b).writes (exec_mul .u rd ha hb)
  · rw [smulRef_eq]
    exact writes_of_writeResult (exec_mul .s rd ha hb) rfl
  · intro r hne hr
    exact writesTwo_of_outputs hne (exec_mulfw .u hne ha hb) (umulfwRef_outputs a b hr)
  · rintro r hne rfl
    exact ⟨smulfwRef_no_overflow a b, writesTwo_of_outputs hne (exec_mulfw .s hne ha hb) (smulfwRef_outputs a b)⟩

end Sys2Proof.Machine

/-! ## The digit multiplier

MULFWD word by word (R167): the loop multiplies the words of the magnitude by the Digit's magnitude, and what it leaves is
negated as n + 1 words where the signs differ. So it gives the words of the exact product (`mulDigitRef_toWords`). -/

namespace Sys2Proof.Machine

/-! ### Words of a pattern -/

theorem ofNat_wordsVal_toWords {n : Nat} (x : BitVec (64 * n)) :
    BitVec.ofNat (64 * n) (wordsVal (toWords n x.toNat)) = x := by
  rw [wordsVal_toWords, Nat.mod_eq_of_lt x.isLt, BitVec.ofNat_toNat, BitVec.setWidth_eq]

/-- Words are the words of their own value's pattern (R11). -/
theorem toWords_bits_wordsVal {n : Nat} {ws : List Word} (h : ws.length = n) :
    toWords n (bits (64 * n) (wordsVal ws)).toNat = ws := by
  subst h
  rw [bits_natCast, BitVec.toNat_ofNat, Nat.mod_eq_of_lt (wordsVal_lt ws), toWords_wordsVal]

theorem take_toWords {n m : Nat} (h : n ≤ m) (x : Nat) : (toWords m x).take n = toWords n x := by
  induction n generalizing m x with
  | zero => rfl
  | succ n ih =>
    obtain ⟨m, rfl⟩ : ∃ m', m = m' + 1 := ⟨m - 1, by omega⟩
    rw [toWords, toWords, List.take_succ_cons, ih (by omega)]

/-! ### The loop -/

theorem mulSerial_length (D : Nat) (ws : List Word) (carry : Nat) : (mulSerial D ws carry).1.length = ws.length := by
  induction ws generalizing carry with
  | nil => rfl
  | cons w ws ih => exact congrArg (· + 1) (ih _)

/-- The loop multiplies: its carry out stands above its product words (R167), by induction on the words. -/
theorem mulSerial_value (D : Nat) (ws : List Word) (carry : Nat) :
    wordsVal (mulSerial D ws carry).1 + 2 ^ (64 * ws.length) * (mulSerial D ws carry).2 = wordsVal ws * D + carry := by
  induction ws generalizing carry with
  | nil => simp [mulSerial, wordsVal]
  | cons w ws ih =>
    have hrest := ih ((w.toNat * D + carry) / 2 ^ 64)
    have hsplit := Nat.mod_add_div (w.toNat * D + carry) (2 ^ 64)
    have hpow : 2 ^ (64 * (ws.length + 1)) = 2 ^ 64 * 2 ^ (64 * ws.length) := by rw [Nat.mul_succ, Nat.add_comm, pow_add]
    simp only [mulSerial, wordsVal, List.length_cons, hpow, BitVec.toNat_ofNat]
    generalize 2 ^ (64 * ws.length) = Q at *
    generalize (w.toNat * D + carry) / 2 ^ 64 = c at *
    generalize (2 : Nat) ^ 64 = B at *
    zify at *
    linear_combination B * hrest + hsplit

/-- The product words and the carry out, as one more word, are the product of a value and a Digit's magnitude (R167). -/
theorem wordsVal_mulSerial {n m D : Nat} (hm : m < 2 ^ (64 * n)) (hD : D < 2 ^ 64) :
    wordsVal ((mulSerial D (toWords n m) 0).1 ++ [BitVec.ofNat 64 (mulSerial D (toWords n m) 0).2]) = m * D := by
  have hvalue := mulSerial_value D (toWords n m) 0
  rw [wordsVal_toWords, Nat.mod_eq_of_lt hm, toWords_length, Nat.add_zero] at hvalue
  have hout : (mulSerial D (toWords n m) 0).2 < 2 ^ 64 := by
    refine Nat.lt_of_mul_lt_mul_left (a := 2 ^ (64 * n)) ?_
    calc 2 ^ (64 * n) * (mulSerial D (toWords n m) 0).2 ≤ m * D := by omega
      _ < 2 ^ (64 * n) * 2 ^ 64 := Nat.mul_lt_mul'' hm hD
  rw [wordsVal_append, mulSerial_length, toWords_length, wordsVal_singleton, BitVec.toNat_ofNat, Nat.mod_eq_of_lt hout,
    hvalue]

/-! ### The sign and the command -/

/-- The digit multiplier gives the n + 1 words of the exact product's pattern (R167). -/
theorem mulDigitRef_toWords {n : Nat} (hn : 0 < n) (sg : Sign) (a : BitVec (64 * n)) (w : Word) :
    mulDigitRef sg n (toWords n a.toNat) w = toWords (n + 1) (bits (64 * (n + 1)) (val sg a * val sg w)).toNat := by
  have hvalue := wordsVal_mulSerial (natAbs_val_lt (by omega) sg a) (natAbs_val_lt (by decide) sg w)
  have hlen : ((mulSerial (val sg w).natAbs (toWords n (val sg a).natAbs) 0).1 ++
      [BitVec.ofNat 64 (mulSerial (val sg w).natAbs (toWords n (val sg a).natAbs) 0).2]).length = n + 1 := by
    rw [List.length_append, mulSerial_length, toWords_length, List.length_singleton]
  rw [mulDigitRef, ofNat_wordsVal_toWords, mul_eq_sign_magnitude, ← hvalue]
  split
  next => rfl
  next => exact (toWords_bits_wordsVal hlen).symm

/-- MULFWD writes the digit multiplier's n low words and, extended, its high Digit (R167): the words of a product's pattern
are those of its low part and of its floor quotient. -/
theorem mulfwd_writesTwo_mulDigitRef {s : State} {rd re ra rb : Reg} {a : BitVec s.cfg.width} {w : Word} (sg : Sign)
    (hne : rd ≠ re) (ha : Holds s ra a) (hw : HoldsWord s rb 0 w) :
    ∃ h : Word, (mulDigitRef sg s.cfg.words (toWords s.cfg.words a.toNat) w)[s.cfg.words]? = some h ∧
      WritesTwo (.mulfwd sg rd re ra rb) s rd re (BitVec.ofNat s.cfg.width
        (wordsVal ((mulDigitRef sg s.cfg.words (toWords s.cfg.words a.toNat) w).take s.cfg.words)))
        (extend s.cfg.width sg h) s.ov := by
  have hfits := rep_mul_ediv (width_pos s.cfg) (by decide) sg a w
  have hexec := exec_mulfwd sg hne ha hw
  have hpattern := (computes_bits (64 * (s.cfg.words + 1)) sg (val sg a * val sg w)).result
  have hwords : mulDigitRef sg s.cfg.words (toWords s.cfg.words a.toNat) w =
      toWords (s.cfg.words + 1) (bits (64 * (s.cfg.words + 1)) (val sg a * val sg w)).toNat :=
    mulDigitRef_toWords (words_pos s.cfg) sg a w
  rw [hwords]
  generalize (bits (64 * (s.cfg.words + 1)) (val sg a * val sg w)).toNat = Y at *
  rw [← Nat.div_add_mod' Y (2 ^ s.cfg.width)] at hpattern
  obtain ⟨hlow, hhigh⟩ := bits_parts (by rw [width_eq, Nat.mul_succ, Nat.add_comm])
    (Nat.mod_lt Y (Nat.two_pow_pos _)) hpattern
  refine ⟨_, toWords_getElem? _ _ _ (Nat.lt_succ_self _), writesTwo_of_writeProduct hne hexec ?_ ?_⟩
  · rw [take_toWords (Nat.le_succ _), wordsVal_toWords]
    exact hlow.symm
  · rw [← extend_bits _ hfits, ← hhigh]
    rfl

end Sys2Proof.Machine

/-! ## The word copies of shifts and rotations

SHLI, SHRI and ROLI inside their range (R251, R252, R271). Bit 64j + i of a shifted or rotated value is one bit of the two
adjacent source words that the datapath combines into its word j. -/

namespace Sys2Proof.Machine

/-! ### The shared functions as shifts and rotations of patterns -/

theorem lsh_eq_shiftLeft {N : Nat} (x : BitVec N) (k : Nat) : lsh x k = x <<< k := by
  rw [lsh, ← Nat.cast_mul, bits_natCast, ← Nat.shiftLeft_eq]
  exact BitVec.eq_of_toNat_eq (by rw [BitVec.toNat_ofNat, BitVec.toNat_shiftLeft])

theorem rsh_eq_shiftRightBy {N : Nat} (sg : Sign) (x : BitVec N) (k : Nat) : rsh sg x k = shiftRightBy sg x k := by
  cases sg with
  | u =>
    rw [rsh, val, ← Int.natCast_ediv, bits_natCast, ← Nat.shiftRight_eq_div_pow, ← BitVec.toNat_ushiftRight,
      BitVec.ofNat_toNat, BitVec.setWidth_eq]
    rfl
  | s => rw [rsh, val, ← Int.shiftRight_eq_div_pow]; rfl

theorem rotl_eq_rotateLeft {N k : Nat} (x : BitVec N) (hk : k < N) : rotl x k = x.rotateLeft k := by
  rw [BitVec.rotateLeft_def, Nat.mod_eq_of_lt hk, rotl, lsh_eq_shiftLeft, rsh_eq_shiftRightBy]
  split
  next hzero =>
    have hover : x >>> (N - 0) = 0#N := BitVec.ushiftRight_eq_zero (Nat.le_refl N)
    rw [hzero, hover, BitVec.shiftLeft_zero, BitVec.or_zero]
  next => rfl

/-! ### Bits of words -/

/-- Bit i of word j of a pattern, or of the word that stands beyond it (R11). -/
theorem getLsbD_getD_toWords {n N j i : Nat} (x : BitVec N) (env : Word) (hi : i < 64) :
    ((toWords n x.toNat).getD j env).getLsbD i = if j < n then x.getLsbD (64 * j + i) else env.getLsbD i := by
  rw [List.getD_eq_getElem?_getD]
  split
  next hj => rw [toWords_getElem? _ _ _ hj, ← extractWord_eq, Option.getD_some, BitVec.getLsbD_extractLsb']; simp [hi]
  next hj => rw [List.getElem?_eq_none (by simpa using hj), Option.getD_none]

/-- Words with the bits of a pattern in order are the pattern's words (R11). -/
theorem map_range_eq_toWords {n N : Nat} {x : BitVec N} {f : Nat → Word}
    (h : ∀ j i, j < n → i < 64 → (f j).getLsbD i = x.getLsbD (64 * j + i)) : (List.range n).map f = toWords n x.toNat := by
  rw [← map_extractWord]
  refine List.map_congr_left fun j hj => BitVec.eq_of_getLsbD_eq fun i hi => ?_
  rw [h j i (List.mem_range.1 hj) hi, BitVec.getLsbD_extractLsb']
  simp [hi]

/-- The left form takes its high bits from its own word and its low bits from the top of the word below (R251). -/
theorem getLsbD_combineLeft {minor i : Nat} (cur below : Word) (hm : minor < 64) (hi : i < 64) :
    (combineLeft cur below minor).getLsbD i =
      if minor ≤ i then cur.getLsbD (i - minor) else below.getLsbD (64 - minor + i) := by
  rw [combineLeft, BitVec.getLsbD_or, BitVec.getLsbD_shiftLeft, decide_eq_true hi, Bool.true_and]
  by_cases hcur : minor ≤ i
  · have hbelow : (if minor = 0 then 0 else below >>> (64 - minor)).getLsbD i = false := by
      split
      next => exact BitVec.getLsbD_zero
      next => rw [BitVec.getLsbD_ushiftRight, BitVec.getLsbD_of_ge _ _ (by omega)]
    rw [if_pos hcur, hbelow, decide_eq_false (Nat.not_lt.2 hcur), Bool.not_false, Bool.true_and, Bool.or_false]
  · rw [if_neg hcur, decide_eq_true (Nat.not_le.1 hcur), Bool.not_true, Bool.false_and, Bool.false_or,
      if_neg (by omega), BitVec.getLsbD_ushiftRight]

/-- The right form takes its low bits from its own word and its high bits from the bottom of the word above (R252). -/
theorem getLsbD_combineRight {minor i : Nat} (cur above : Word) (hm : minor < 64) (hi : i < 64) :
    (combineRight cur above minor).getLsbD i =
      if minor + i < 64 then cur.getLsbD (minor + i) else above.getLsbD (minor + i - 64) := by
  rw [combineRight, BitVec.getLsbD_or, BitVec.getLsbD_ushiftRight]
  by_cases hcur : minor + i < 64
  · have habove : (if minor = 0 then 0 else above <<< (64 - minor)).getLsbD i = false := by
      split
      next => exact BitVec.getLsbD_zero
      next =>
        rw [BitVec.getLsbD_shiftLeft, decide_eq_true (p := i < 64 - minor) (by omega), Bool.not_true, Bool.and_false,
          Bool.false_and]
    rw [if_pos hcur, habove, Bool.or_false]
  · have hindex : i - (64 - minor) = minor + i - 64 := by omega
    rw [if_neg hcur, BitVec.getLsbD_of_ge cur _ (Nat.not_lt.1 hcur), Bool.false_or, if_neg (by omega),
      BitVec.getLsbD_shiftLeft, decide_eq_true hi, decide_eq_false (by omega), hindex, Bool.not_false, Bool.true_and,
      Bool.true_and]

/-- The top word of a pattern has the pattern's top bit (R11). -/
theorem msb_getLastD_toWords {n : Nat} (hn : 0 < n) (x : BitVec (64 * n)) :
    ((toWords n x.toNat).getLastD 0).msb = x.msb := by
  have hlast : (toWords n x.toNat).getLastD 0 = (toWords n x.toNat).getD (n - 1) 0 := by
    rw [List.getLastD_eq_getLast?, List.getLast?_eq_getElem?, toWords_length, List.getD_eq_getElem?_getD]
  rw [hlast, BitVec.msb_eq_getLsbD_last, getLsbD_getD_toWords x 0 (by decide), if_pos (by omega),
    BitVec.msb_eq_getLsbD_last]
  congr 1
  omega

theorem getLsbD_shiftRightBy {N m : Nat} (sg : Sign) (x : BitVec N) (k : Nat) (hm : m < N) :
    (shiftRightBy sg x k).getLsbD m = if k + m < N then x.getLsbD (k + m) else decide (sg = .s ∧ x.msb = true) := by
  cases sg with
  | u =>
    rw [shiftRightBy, BitVec.getLsbD_ushiftRight]
    split
    next => rfl
    next hbeyond => exact BitVec.getLsbD_of_ge _ _ (Nat.not_lt.1 hbeyond)
  | s =>
    rw [shiftRightBy, BitVec.getLsbD_sshiftRight]
    simp [Nat.not_le.2 hm]

/-! ### Word copies -/

/-- A word copied up by q words is a word of the value shifted left by 64q bits (R250, R251). -/
theorem getLsbD_copyLeft {n q j i : Nat} (x : BitVec (64 * n)) (hj : j < n) (hi : i < 64) :
    (if q ≤ j then (toWords n x.toNat).getD (j - q) 0 else 0).getLsbD i =
      (decide (64 * q ≤ 64 * j + i) && x.getLsbD (64 * j + i - 64 * q)) := by
  split
  next hq =>
    have hindex : 64 * (j - q) + i = 64 * j + i - 64 * q := by omega
    rw [getLsbD_getD_toWords x 0 hi, if_pos (by omega), hindex, decide_eq_true (by omega), Bool.true_and]
  next hq => rw [decide_eq_false (by omega), Bool.false_and]; exact BitVec.getLsbD_zero

/-- The environment of a right shift is the fill in each of its bits (R252, R253). -/
theorem getLsbD_env {c : Prop} [Decidable c] {i : Nat} (hi : i < 64) :
    (if c then BitVec.allOnes 64 else 0).getLsbD i = decide c := by
  split
  next hc => rw [BitVec.getLsbD_allOnes, decide_eq_true hi, decide_eq_true hc]
  next hc => rw [decide_eq_false hc]; exact BitVec.getLsbD_zero

theorem sub_mod_eq {n q j : Nat} (hj : j < n) (hq : q ≤ n) : (j + n - q) % n = if q ≤ j then j - q else j + n - q := by
  split
  next h =>
    have hsum : j + n - q = j - q + n := by omega
    rw [hsum, Nat.add_mod_right, Nat.mod_eq_of_lt (by omega)]
  next h => exact Nat.mod_eq_of_lt (by omega)

/-- A word copied up by q words, indices mod n, is a word of the value rotated left by 64q bits (R271). -/
theorem getLsbD_copyRotate {n q j i : Nat} (x : BitVec (64 * n)) (hj : j < n) (hq : q ≤ n) (hi : i < 64) :
    ((toWords n x.toNat).getD ((j + n - q) % n) 0).getLsbD i =
      if 64 * j + i < 64 * q then x.getLsbD (64 * n - 64 * q + (64 * j + i)) else x.getLsbD (64 * j + i - 64 * q) := by
  rw [getLsbD_getD_toWords x 0 hi, if_pos (Nat.mod_lt _ (by omega)), sub_mod_eq hj hq]
  split
  next h =>
    rw [if_neg (by omega)]
    congr 1
    omega
  next h =>
    rw [if_pos (by omega)]
    congr 1
    omega

/-! ### The datapaths -/

/-- The left datapath gives the words of the shifted pattern (R251). -/
theorem lshRef_toWords {n : Nat} (x : BitVec (64 * n)) (k : Nat) :
    lshRef (toWords n x.toNat) k = toWords n (x <<< k).toNat := by
  have hsplit := Nat.div_add_mod k 64
  have hminor := Nat.mod_lt k (y := 64) (by decide)
  rw [lshRef, toWords_length]
  refine map_range_eq_toWords fun j i hj hi => ?_
  rw [getLsbD_combineLeft _ _ hminor hi, BitVec.getLsbD_shiftLeft, decide_eq_true (by omega), Bool.true_and, ← decide_not]
  split
  next hcur =>
    rw [getLsbD_copyLeft x hj (by omega)]
    exact congrArg₂ and (decide_eq_decide.2 (by omega)) (congrArg _ (by omega))
  next hbelow =>
    rw [Nat.sub_sub, getLsbD_copyLeft x hj (by omega)]
    exact congrArg₂ and (decide_eq_decide.2 (by omega)) (congrArg _ (by omega))

/-- The right datapath gives the words of the shifted pattern, with the fill of R253 as its environment (R252). -/
theorem rshRef_toWords {n : Nat} (hn : 0 < n) (sg : Sign) (x : BitVec (64 * n)) (k : Nat) :
    rshRef sg (toWords n x.toNat) k = toWords n (shiftRightBy sg x k).toNat := by
  have hk := Nat.div_add_mod k 64
  have hminor := Nat.mod_lt k (y := 64) (by decide)
  rw [rshRef, toWords_length, msb_getLastD_toWords hn]
  refine map_range_eq_toWords fun j i hj hi => ?_
  rw [getLsbD_combineRight _ _ hminor hi, getLsbD_shiftRightBy _ _ _ (by omega)]
  split
  next hcur =>
    have hindex : 64 * (j + k / 64) + (k % 64 + i) = k + (64 * j + i) := by omega
    rw [getLsbD_getD_toWords x _ hcur, getLsbD_env hcur, hindex]
    exact if_congr (by omega) rfl rfl
  next habove =>
    have hindex : 64 * (j + k / 64 + 1) + (k % 64 + i - 64) = k + (64 * j + i) := by omega
    rw [getLsbD_getD_toWords x _ (by omega), getLsbD_env (by omega), hindex]
    exact if_congr (by omega) rfl rfl

/-- The rotating datapath gives the words of the rotated pattern (R271). -/
theorem rotlRef_toWords {n k : Nat} (x : BitVec (64 * n)) (hk : k < 64 * n) :
    rotlRef (toWords n x.toNat) k = toWords n (x.rotateLeft k).toNat := by
  have hsplit := Nat.div_add_mod k 64
  have hminor := Nat.mod_lt k (y := 64) (by decide)
  rw [rotlRef, toWords_length]
  refine map_range_eq_toWords fun j i hj hi => ?_
  rw [getLsbD_combineLeft _ _ hminor hi, BitVec.getLsbD_rotateLeft, Nat.mod_eq_of_lt hk, Bool.cond_decide,
    decide_eq_true (by omega), Bool.true_and]
  split
  next hcur =>
    rw [getLsbD_copyRotate x hj (by omega) (by omega)]
    exact if_congr (by omega) (congrArg _ (by omega)) (congrArg _ (by omega))
  next hbelow =>
    have hwrap : j + 2 * n - k / 64 - 1 = j + n - (k / 64 + 1) + n := by omega
    rw [hwrap, Nat.add_mod_right, getLsbD_copyRotate x hj (by omega) (by omega)]
    exact if_congr (by omega) (congrArg _ (by omega)) (congrArg _ (by omega))

/-! ### The commands -/

/-- A distance below N shifts left without clamping (R253, R256). -/
theorem smartL_immVal {N : Nat} {imm : Imm15} (h : imm.toNat < N) (sg : Sign) (x : BitVec N) :
    smartL sg x (immVal imm) = x <<< imm.toNat := by
  rw [immVal, smartL, if_neg (Int.not_lt.2 (Int.natCast_nonneg _)), Int.toNat_natCast, smartLeftBy,
    if_neg (Nat.not_le.2 h), lsh_eq_shiftLeft]

/-- A distance below N shifts right without clamping (R253, R258). -/
theorem smartR_immVal {N : Nat} {imm : Imm15} (h : imm.toNat < N) (sg : Sign) (x : BitVec N) :
    smartR sg x (immVal imm) = shiftRightBy sg x imm.toNat := by
  rw [immVal, smartR, if_neg (Int.not_lt.2 (Int.natCast_nonneg _)), Int.toNat_natCast, smartRightBy,
    if_neg (Nat.not_le.2 h), rsh_eq_shiftRightBy]

/-- A distance below N passes the range check of a rotation (R415). -/
theorem rotGuard_immVal {s : State} {imm : Imm15} (h : imm.toNat < s.cfg.width) : rotGuard s (immVal imm) = .ok () := by
  have hrange : inRange (immVal imm) s.cfg.width = true := by simp [inRange, immVal, h]
  rw [rotGuard, hrange, check_true]

theorem exec_shli {s : State} {ra : Reg} {x : BitVec s.cfg.width} {imm : Imm15} (rd : Reg) (ha : Holds s ra x)
    (himm : imm.toNat < s.cfg.width) : exec (.shli rd ra imm) s = .next (s.writeV rd (x <<< imm.toNat)) := by
  rw [← smartL_immVal himm .u x]
  exact congrArg (command _ s) (shiftBody_ok ha rfl rfl)

theorem exec_shri {s : State} {ra : Reg} {x : BitVec s.cfg.width} {imm : Imm15} (sg : Sign) (rd : Reg)
    (ha : Holds s ra x) (himm : imm.toNat < s.cfg.width) :
    exec (.shri sg rd ra imm) s = .next (s.writeV rd (shiftRightBy sg x imm.toNat)) := by
  rw [← smartR_immVal himm sg x]
  exact congrArg (command _ s) (shiftBody_ok ha rfl rfl)

theorem exec_roli {s : State} {ra : Reg} {x : BitVec s.cfg.width} {imm : Imm15} (rd : Reg) (ha : Holds s ra x)
    (himm : imm.toNat < s.cfg.width) : exec (.roli rd ra imm) s = .next (s.writeV rd (x.rotateLeft imm.toNat)) := by
  rw [← rotl_eq_rotateLeft x himm]
  exact congrArg (command _ s) (shiftBody_ok ha rfl (rotGuard_immVal himm))

/-- A command writes what a datapath over words gives when the datapath gives the words of what the command writes. -/
theorem writes_of_words {i : Instr} {s : State} {rd : Reg} {y : BitVec s.cfg.width} {ws : List Word}
    (hexec : exec i s = .next (s.writeV rd y)) (hws : ws = toWords s.cfg.words y.toNat) :
    Writes i s rd (BitVec.ofNat s.cfg.width (wordsVal ws)) s.ov := by
  have hy : BitVec.ofNat s.cfg.width (wordsVal ws) = y := hws ▸ ofNat_wordsVal_toWords y
  rw [hy]
  exact writes_of_exec rfl hexec

/-- Settles O58: each datapath gives the words of what its command writes. -/
theorem wordSerialDatapathsRefine : Obligations.WordSerialDatapathsRefine := by
  unfold Obligations.WordSerialDatapathsRefine
  intro N sg rd re ra rb imm s a w _ ha hw
  obtain rfl : s.cfg.width = N := ha.1
  refine ⟨fun hne => mulfwd_writesTwo_mulDigitRef sg hne ha hw, fun himm => ⟨?_, ?_, ?_⟩⟩
  · exact writes_of_words (exec_shli rd ha himm) (lshRef_toWords a imm.toNat)
  · exact writes_of_words (exec_shri sg rd ha himm) (rshRef_toWords (words_pos s.cfg) sg a imm.toNat)
  · exact writes_of_words (exec_roli rd ha himm) (rotlRef_toWords a himm)

end Sys2Proof.Machine

/-! ## Division

DIV, DIVD and DIVFW (R190 to R192, R197). For a nonzero divisor all three write the patterns of the truncating quotient
and remainder and whether the quotient is out of range (`writesTwo_div`, `writesTwo_divd`, `writesTwo_divfw`): where DIV
and DIVD have a case of their own, the signed minimum by −1, it says the same (`writeDivide_of_ne_zero`). -/

namespace Sys2Proof

/-! ### Words with equal destinations -/

theorem decode_div_sameDestination (s : Bool) (rd ra rb : Reg) :
    decode (wordR 0x18#6 s false rd rd ra rb 0) = .error .sameDestination :=
  decode_sameDestination (usesRC := false) (build := fun f => .div f.sg f.rd f.re f.ra f.rb)
    (by simp [rows, arithRows]) s rd ra rb 0

theorem decode_divd_sameDestination (s : Bool) (rd ra rb : Reg) :
    decode (wordR 0x1A#6 s false rd rd ra rb 0) = .error .sameDestination :=
  decode_sameDestination (usesRC := false) (build := fun f => .divd f.sg f.rd f.re f.ra f.rb)
    (by simp [rows, arithRows]) s rd ra rb 0

theorem decode_divfw_sameDestination (s : Bool) (rd ra rb rc : Reg) :
    decode (wordR 0x19#6 s false rd rd ra rb rc) = .error .sameDestination :=
  decode_sameDestination (usesRC := true) (build := fun f => .divfw f.sg f.rd f.re f.ra f.rb f.rc)
    (by simp [rows, arithRows]) s rd ra rb rc

end Sys2Proof

namespace Sys2Proof.Machine

/-! ### Truncating quotients and remainders in range -/

theorem val_unsigned_nonneg {N : Nat} {sg : Sign} (x : BitVec N) (h : sg = .u) : 0 ≤ val sg x :=
  h ▸ Int.natCast_nonneg _

theorem val_eq_zero_iff {N : Nat} (sg : Sign) (x : BitVec N) : val sg x = 0 ↔ x = 0 := by
  have hzero : val sg (0 : BitVec N) = 0 := by cases sg <;> simp [val]
  rw [← hzero, (val_injective sg).eq_iff]

/-- A remainder is in the range of its divisor (R191, R192). -/
theorem rep_tmod {M : Nat} {sg : Sign} {a b : Int} (ha : sg = .u → 0 ≤ a) (hb : rep M sg b = true) (hne : b ≠ 0) :
    rep M sg (Int.tmod a b) = true := by
  cases sg with
  | u =>
    lift a to Nat using ha rfl
    lift b to Nat using (rep_iff.1 hb).1
    rw [rep_unsigned_natCast] at hb
    rw [← Int.ofNat_tmod, rep_unsigned_natCast]
    exact Nat.lt_trans (Nat.mod_lt a (by omega)) hb
  | s =>
    refine rep_signed_of_natAbs_lt ?_
    rw [Int.natAbs_tmod]
    exact Nat.lt_of_lt_of_le (Nat.mod_lt _ (Int.natAbs_pos.2 hne)) (natAbs_le_of_rep hb)

/-- Of all quotients by a nonzero divisor only that of the signed minimum by −1 is out of range (R190). -/
theorem overflow_tdiv {M : Nat} {sg : Sign} {a b : Int} (ha : rep M sg a = true) (hb : sg = .u → 0 ≤ b)
    (hne : b ≠ 0) : overflow M sg (Int.tdiv a b) = true ↔ sg = .s ∧ a = minS M .s ∧ b = -1 := by
  cases sg with
  | u =>
    lift a to Nat using (rep_iff.1 ha).1
    lift b to Nat using hb rfl
    rw [rep_unsigned_natCast] at ha
    rw [← Int.ofNat_tdiv, overflow_unsigned_natCast, decide_eq_true_iff]
    have hle := Nat.div_le_self a b
    simp only [reduceCtorEq, false_and, iff_false]
    omega
  | s =>
    have hmag := natAbs_le_of_rep ha
    by_cases hone : b.natAbs = 1
    · obtain rfl | rfl := Int.natAbs_eq_iff.1 hone
      · rw [Nat.cast_one, Int.tdiv_one, overflow, ha]
        simp
      · rw [rep_iff] at ha
        rw [Nat.cast_one, Int.tdiv_neg, Int.tdiv_one, overflow_iff]
        simp only [minS, maxS, true_and, and_true] at ha ⊢
        omega
    · have hsmall : (Int.tdiv a b).natAbs < 2 ^ (M - 1) := by
        have hpos := Nat.two_pow_pos (M - 1)
        rw [Int.natAbs_tdiv]
        calc a.natAbs / b.natAbs ≤ a.natAbs / 2 := Nat.div_le_div_left (by omega) (by decide)
          _ < 2 ^ (M - 1) := by omega
      rw [overflow, rep_signed_of_natAbs_lt hsmall]
      simp only [Bool.not_true, Bool.false_eq_true, true_and, false_iff, not_and]
      rintro - rfl
      exact hone rfl

/-! ### Quotients and remainders of patterns -/

theorem bits_tdiv {N : Nat} (sg : Sign) (a b : BitVec N) :
    bits N (Int.tdiv (val sg a) (val sg b)) = quotient sg a b := by
  cases sg with
  | u =>
    have hudiv : Int.tdiv (val .u a) (val .u b) = val .u (a / b) := (Int.ofNat_tdiv ..).symm
    rw [hudiv, bits_val, quotient]
  | s => rw [← BitVec.toInt_inj, bits, BitVec.toInt_ofInt, quotient, BitVec.toInt_sdiv, val, val]

theorem bits_tmod {N : Nat} (sg : Sign) (a b : BitVec N) :
    bits N (Int.tmod (val sg a) (val sg b)) = remainder sg a b := by
  cases sg with
  | u =>
    have humod : Int.tmod (val .u a) (val .u b) = val .u (a % b) := (Int.ofNat_tmod ..).symm
    rw [humod, bits_val, remainder]
  | s =>
    have hsrem : Int.tmod (val .s a) (val .s b) = val .s (a.srem b) := (BitVec.toInt_srem a b).symm
    rw [hsrem, bits_val, remainder]

theorem bits_minS (N : Nat) : bits N (minS N .s) = BitVec.intMin N := by
  have hpow : BitVec.ofNat N (2 ^ (N - 1)) = BitVec.intMin N :=
    BitVec.eq_of_toNat_eq (by rw [BitVec.toNat_ofNat, BitVec.toNat_intMin])
  rw [minS, bits_neg_int, bits_natCast, hpow, BitVec.neg_intMin]

theorem val_intMin {N : Nat} (hN : 0 < N) : val .s (BitVec.intMin N) = minS N .s := by
  have hmin := minS_le_zero N .s
  have hmax := maxS_nonneg N .s
  rw [← bits_minS, val_bits hN (rep_iff.2 ⟨Int.le_refl _, by omega⟩)]

theorem val_allOnes {M : Nat} (hM : 0 < M) : val .s (BitVec.allOnes M) = -1 := by
  rw [val, BitVec.toInt_allOnes, if_pos hM]

/-- Which patterns the signed minimum and −1 are (R190). -/
theorem overflow_tdiv_val {N M : Nat} (hN : 0 < N) (hM : 0 < M) (sg : Sign) (a : BitVec N) {b : BitVec M}
    (hb : b ≠ 0) : overflow N sg (Int.tdiv (val sg a) (val sg b)) = true ↔
      sg = .s ∧ a = BitVec.intMin N ∧ b = BitVec.allOnes M := by
  rw [overflow_tdiv (rep_val sg a) (val_unsigned_nonneg b) (mt (val_eq_zero_iff sg b).1 hb), ← val_intMin hN,
    ← val_allOnes hM]
  refine and_congr_right fun hsg => ?_
  rw [hsg, (val_injective .s).eq_iff, (val_injective .s).eq_iff]

theorem tdiv_minS (N : Nat) : bits N (Int.tdiv (minS N .s) (-1)) = bits N (minS N .s) := by
  rw [Int.tdiv_neg, Int.tdiv_one, bits_neg_int, bits_minS, BitVec.neg_intMin]

theorem bits_tdiv_intMin {N M : Nat} (hN : 0 < N) (hM : 0 < M) :
    bits N (Int.tdiv (val .s (BitVec.intMin N)) (val .s (BitVec.allOnes M))) = BitVec.intMin N := by
  rw [val_intMin hN, val_allOnes hM, tdiv_minS, bits_minS]

theorem tmod_allOnes {M : Nat} (hM : 0 < M) (a : Int) : Int.tmod a (val .s (BitVec.allOnes M)) = 0 := by
  rw [val_allOnes hM, Int.tmod_neg, Int.tmod_one]

/-- A word extended to a register's width reads as the word (R12). -/
theorem val_extend {N : Nat} (hN : 64 < N) (sg : Sign) (w : Word) : val sg (extend N sg w) = val sg w := by
  rw [← bits_val_word, val_bits (by omega) ((rep_val_word hN sg sg w).2 (by cases sg <;> simp))]

/-! ### What the commands do -/

/-- What DIV and DIVD write for the dividend a, the divisor b and the remainder r0 that a zero divisor leaves (R190,
R191). -/
def State.writeDivide (s : State) (sg : Sign) (rd re : Reg) (a b r0 : Int) : State :=
  s.writeQR rd re (divide s.cfg.width sg a b r0).1 (divide s.cfg.width sg a b r0).2.1 (divide s.cfg.width sg a b r0).2.2

/-- What DIVFW writes for the dividend D, whose low half is `lo`, and the divisor b (R192). -/
def State.writeDivfw (s : State) (sg : Sign) (rd re : Reg) (D lo b : Int) : State :=
  if b = 0 then s.writeQR rd re lo lo true
  else s.writeQR rd re (Int.tdiv D b) (Int.tmod D b) (overflow s.cfg.width sg (Int.tdiv D b))

theorem writeDivide_zero (s : State) (sg : Sign) (rd re : Reg) (a r0 : Int) :
    s.writeDivide sg rd re a 0 r0 = s.writeQR rd re a r0 true := by
  rw [State.writeDivide, divide, if_pos rfl]

theorem writeQR_congr {s : State} {q q' : Int} (h : bits s.cfg.width q = bits s.cfg.width q') (rd re : Reg) (r : Int)
    (ovf : Bool) : s.writeQR rd re q r ovf = s.writeQR rd re q' r ovf := by
  rw [State.writeQR, h, ← State.writeQR]

/-- By a nonzero divisor DIV and DIVD write the quotient, the remainder and whether the quotient is out of range: the
signed minimum by −1 is no exception (R190, R191). -/
theorem writeDivide_of_ne_zero {s : State} {sg : Sign} {a b : Int} (ha : rep s.cfg.width sg a = true)
    (hb : sg = .u → 0 ≤ b) (hne : b ≠ 0) (rd re : Reg) (r0 : Int) : s.writeDivide sg rd re a b r0 =
      s.writeQR rd re (Int.tdiv a b) (Int.tmod a b) (overflow s.cfg.width sg (Int.tdiv a b)) := by
  have hov := overflow_tdiv ha hb hne
  rw [State.writeDivide, divide, if_neg hne]
  split
  next hmin =>
    rw [hov.2 hmin]
    obtain ⟨rfl, rfl, rfl⟩ := hmin
    rw [Int.tmod_neg, Int.tmod_one]
    exact writeQR_congr (tdiv_minS _).symm rd re 0 true
  next hfits => rw [Bool.eq_false_iff.2 (mt hov.1 hfits)]

/-- With two destinations DIV makes no check before its reads (R190). -/
theorem exec_div_eq_command {rd re : Reg} (hne : rd ≠ re) (sg : Sign) (ra rb : Reg) (s : State) :
    exec (.div sg rd re ra rb) s = command (.div sg rd re ra rb) s
      (readVal s sg ra >>= fun a => readVal s sg rb >>= fun b =>
        .ok (s.writeDivide sg rd re a b a)) := by
  simp [exec, execDiv, bne_iff_ne.2 hne, State.writeDivide]

/-- With two destinations DIVD makes no check before its reads (R191). -/
theorem exec_divd_eq_command {rd re : Reg} (hne : rd ≠ re) (sg : Sign) (ra rb : Reg) (s : State) :
    exec (.divd sg rd re ra rb) s = command (.divd sg rd re ra rb) s
      (readVal s sg ra >>= fun a => readDigit s sg ra >>= fun a0 => readDigit s sg rb >>= fun d =>
        .ok (s.writeDivide sg rd re a d a0)) := by
  simp [exec, execDivd, bne_iff_ne.2 hne, State.writeDivide]

/-- With two destinations DIVFW makes no check before its reads (R192). -/
theorem exec_divfw_eq_command {rd re : Reg} (hne : rd ≠ re) (sg : Sign) (ra rb rc : Reg) (s : State) :
    exec (.divfw sg rd re ra rb rc) s = command (.divfw sg rd re ra rb rc) s
      (readVal s sg ra >>= fun hi => readVal s .u rb >>= fun lo => readVal s sg rc >>= fun b =>
        .ok (s.writeDivfw sg rd re (hi * (2 ^ s.cfg.width : Nat) + lo) lo b)) := by
  simp [exec, execDivfw, bne_iff_ne.2 hne, State.writeDivfw]

section
variable {s : State} {rd re ra rb rc : Reg} {a b c : BitVec s.cfg.width} {w : Word}

theorem exec_div (sg : Sign) (hne : rd ≠ re) (ha : Holds s ra a) (hb : Holds s rb b) :
    exec (.div sg rd re ra rb) s = .next (s.writeDivide sg rd re (val sg a) (val sg b) (val sg a)) := by
  simp [exec_div_eq_command hne, readVal_of_holds sg ha, readVal_of_holds sg hb]

/-- The Digit that a zero divisor leaves is the dividend's low word (D14). -/
theorem exec_divd (sg : Sign) (hne : rd ≠ re) (ha : Holds s ra a) (hw : HoldsWord s rb 0 w) :
    exec (.divd sg rd re ra rb) s =
      .next (s.writeDivide sg rd re (val sg a) (val sg w) (val sg (a.extractLsb' 0 64))) := by
  have hlow : HoldsWord s ra 0 (a.extractLsb' 0 64) := holdsWord_of_holds ha (words_pos s.cfg)
  simp [exec_divd_eq_command hne, readVal_of_holds sg ha, readDigit_of_holds sg hlow, readDigit_of_holds sg hw]

theorem exec_divfw (sg : Sign) (hne : rd ≠ re) (ha : Holds s ra a) (hb : Holds s rb b) (hc : Holds s rc c) :
    exec (.divfw sg rd re ra rb rc) s = .next (s.writeDivfw sg rd re
      (val sg a * (2 ^ s.cfg.width : Nat) + (b.toNat : Int)) b.toNat (val sg c)) := by
  simp only [exec_divfw_eq_command hne, readVal_of_holds sg ha, readVal_of_holds .u hb, readVal_of_holds sg hc, bind_ok,
    command_ok, val]

/-- A command that ends in `State.writeQR` writes the two patterns and OV. -/
theorem writesTwo_of_writeQR {i : Instr} {q r : Int} {ovf : Bool} {y z : BitVec s.cfg.width} (hne : rd ≠ re)
    (h : exec i s = .next (s.writeQR rd re q r ovf)) (hy : bits s.cfg.width q = y) (hz : bits s.cfg.width r = z) :
    WritesTwo i s rd re y z ovf := by
  obtain ⟨hquot, hrem, hframe, hother⟩ := writeQR_spec s hne q r ovf
  exact ⟨_, h, hy ▸ hquot, hz ▸ hrem, hframe, hother⟩

theorem writesTwo_div (sg : Sign) (hne : rd ≠ re) (ha : Holds s ra a) (hb : Holds s rb b) (h0 : b ≠ 0) :
    WritesTwo (.div sg rd re ra rb) s rd re (bits s.cfg.width (Int.tdiv (val sg a) (val sg b)))
      (bits s.cfg.width (Int.tmod (val sg a) (val sg b)))
      (overflow s.cfg.width sg (Int.tdiv (val sg a) (val sg b))) := by
  have hexec := exec_div sg hne ha hb
  rw [writeDivide_of_ne_zero (rep_val sg a) (val_unsigned_nonneg b) (mt (val_eq_zero_iff sg b).1 h0)] at hexec
  exact writesTwo_of_writeQR hne hexec rfl rfl

theorem writesTwo_divd (sg : Sign) (hne : rd ≠ re) (ha : Holds s ra a) (hw : HoldsWord s rb 0 w) (h0 : w ≠ 0) :
    WritesTwo (.divd sg rd re ra rb) s rd re (bits s.cfg.width (Int.tdiv (val sg a) (val sg w)))
      (bits s.cfg.width (Int.tmod (val sg a) (val sg w)))
      (overflow s.cfg.width sg (Int.tdiv (val sg a) (val sg w))) := by
  have hexec := exec_divd sg hne ha hw
  rw [writeDivide_of_ne_zero (rep_val sg a) (val_unsigned_nonneg w) (mt (val_eq_zero_iff sg w).1 h0)] at hexec
  exact writesTwo_of_writeQR hne hexec rfl rfl

theorem writesTwo_divfw {sg : Sign} {D : Int} (hne : rd ≠ re) (ha : Holds s ra a) (hb : Holds s rb b)
    (hc : Holds s rc c) (hD : D = val sg a * (2 ^ s.cfg.width : Nat) + (b.toNat : Int)) (h0 : c ≠ 0) :
    WritesTwo (.divfw sg rd re ra rb rc) s rd re (bits s.cfg.width (Int.tdiv D (val sg c)))
      (bits s.cfg.width (Int.tmod D (val sg c))) (overflow s.cfg.width sg (Int.tdiv D (val sg c))) := by
  have hexec := exec_divfw sg hne ha hb hc
  rw [← hD, State.writeDivfw, if_neg (mt (val_eq_zero_iff sg c).1 h0)] at hexec
  exact writesTwo_of_writeQR hne hexec rfl rfl

end

/-! ### Invalid sources -/

/-- A read that can only fail with UNINIT, before a part that ends in UNINIT (R405). -/
theorem bind_uninit {α : Type} {x : Except Cause α} {f : α → Except Cause State}
    (hx : ∀ k, x = .error k → k = .uninit) (hf : ∀ a, x = .ok a → f a = .error .uninit) :
    (x >>= f) = .error .uninit := by
  cases x with
  | error k => rw [bind_error, hx k rfl]
  | ok a => exact hf a rfl

/-- DIVD reads the word 0 of its dividend between its two sources (R191). -/
theorem faults_divd {s : State} {rd re ra rb : Reg} (sg : Sign) (hne : rd ≠ re)
    (h : HasInvalid s ra ∨ InvalidWord s rb 0) : Faults (.divd sg rd re ra rb) s 2 := by
  refine faults_of_body_error (k := .uninit) (exec_divd_eq_command hne sg ra rb s)
    (bind_uninit (fun _ => readVal_eq_error) fun a ha => bind_uninit (fun _ => readDigit_eq_error) fun _ _ => ?_)
  obtain h | h := h
  · rw [readVal_of_invalid sg h] at ha
    cases ha
  · rw [readDigit_of_invalid sg h, bind_error]

theorem faults_divfw {s : State} {rd re ra rb rc : Reg} (sg : Sign) (hne : rd ≠ re)
    (h : HasInvalid s ra ∨ HasInvalid s rb ∨ HasInvalid s rc) : Faults (.divfw sg rd re ra rb rc) s 2 := by
  refine faults_of_body_error (k := .uninit) (exec_divfw_eq_command hne sg ra rb rc s)
    (bind_uninit (fun _ => readVal_eq_error) fun a ha => bind_bind_uninit (fun _ => readVal_eq_error) ?_)
  obtain h | h := h
  · rw [readVal_of_invalid sg h] at ha
    cases ha
  · exact h.imp (readVal_of_invalid .u) (readVal_of_invalid sg)

end Sys2Proof.Machine

/-! ### DIV, DIVD and DIVFW

The theorem on DIV stands outside `Sys2Proof.Machine`, where `divide` is the model's function. -/

namespace Sys2Proof

section
open Machine

/-- Settles O31: a zero divisor has its own branch, and of the others exactly the signed minimum by −1 is out of range
(`overflow_tdiv_val`). -/
protected theorem divide : Obligations.Divide := by
  unfold Obligations.Divide
  intro N sg rd re ra rb s _
  refine ⟨fun hne => decode_of_encode_eq (i := .div sg rd re ra rb) rfl (bne_iff_ne.2 hne),
    decode_div_sameDestination sg.bit rd ra rb, fun a b hne ha hb => ?_,
    fun hne => faults_of_invalid (exec_div_eq_command hne sg ra rb s)⟩
  obtain rfl : s.cfg.width = N := ha.1
  have hpos := width_pos s.cfg
  split
  next hzero =>
    have hexec := exec_div sg hne ha hb
    rw [(val_eq_zero_iff sg b).2 hzero, writeDivide_zero] at hexec
    exact writesTwo_of_writeQR hne hexec (bits_val sg a) (bits_val sg a)
  next hzero =>
    have hov := overflow_tdiv_val hpos hpos sg a hzero
    have hwrites := writesTwo_div sg hne ha hb hzero
    split
    next hmin =>
      rw [hov.2 hmin] at hwrites
      obtain ⟨rfl, rfl, rfl⟩ := hmin
      rwa [bits_tdiv_intMin hpos hpos, tmod_allOnes hpos] at hwrites
    next hfits =>
      have hrep := Bool.eq_false_iff.2 (mt hov.1 hfits)
      rw [hrep, bits_tdiv, bits_tmod] at hwrites
      refine ⟨hwrites, ?_, ?_⟩
      · rw [← bits_tdiv, val_bits hpos (overflow_eq_false_iff.1 hrep)]
      · rw [← bits_tmod, val_bits hpos (rep_tmod (val_unsigned_nonneg a) (rep_val sg b)
          (mt (val_eq_zero_iff sg b).1 hzero))]

end

end Sys2Proof

namespace Sys2Proof.Machine

/-- Settles O32, as O31 with the word extended to the register's width: its reading stays the same (`val_extend`), and
the remainder is in the range of one word (`rep_tmod`). -/
theorem divideByDigit : Obligations.DivideByDigit := by
  unfold Obligations.DivideByDigit
  intro N sg rd re ra rb s _
  refine ⟨fun hne => decode_of_encode_eq (i := .divd sg rd re ra rb) rfl (bne_iff_ne.2 hne),
    decode_divd_sameDestination sg.bit rd ra rb, fun a w hne ha hw => ?_, faults_divd sg⟩
  obtain rfl : s.cfg.width = N := ha.1
  have hpos := width_pos s.cfg
  split
  next hzero =>
    have hexec := exec_divd sg hne ha hw
    rw [(val_eq_zero_iff sg w).2 hzero, writeDivide_zero] at hexec
    exact writesTwo_of_writeQR hne hexec (bits_val sg a) (bits_val_word _ sg _)
  next hzero =>
    have hov := overflow_tdiv_val hpos (by decide) sg a hzero
    have hwrites := writesTwo_divd sg hne ha hw hzero
    split
    next hmin =>
      rw [hov.2 hmin] at hwrites
      obtain ⟨rfl, rfl, rfl⟩ := hmin
      rwa [bits_tdiv_intMin hpos (by decide), tmod_allOnes (by decide)] at hwrites
    next hfits =>
      have hrep := Bool.eq_false_iff.2 (mt hov.1 hfits)
      have hmod := rep_tmod (val_unsigned_nonneg a) (rep_val sg w) (mt (val_eq_zero_iff sg w).1 hzero)
      rw [hrep, ← extend_bits _ hmod] at hwrites
      rw [← bits_tdiv, val_extend (width_gt_word s.cfg), val_bits hpos (overflow_eq_false_iff.1 hrep)]
      exact ⟨_, hwrites, rfl, val_bits (by decide) hmod⟩

/-- Unsigned, the quotient of a double-width dividend fits exactly where the dividend's high half is below the divisor
(R192). -/
theorem overflow_divfw_unsigned {N hi lo b : Nat} (hlo : lo < 2 ^ N) (hb : b ≠ 0) :
    overflow N .u (Int.tdiv ((hi : Int) * (2 ^ N : Nat) + lo) b) = false ↔ hi < b := by
  have hquot : Int.tdiv ((hi : Int) * (2 ^ N : Nat) + lo) b = ((hi * 2 ^ N + lo) / b : Nat) := by
    push_cast [Int.ofNat_tdiv]
    rfl
  rw [hquot, overflow_eq_false_iff, rep_unsigned_natCast, Nat.div_lt_iff_lt_mul (by omega)]
  constructor
  · intro h
    exact Nat.lt_of_mul_lt_mul_left (a := 2 ^ N) (by rw [Nat.mul_comm]; omega)
  · intro h
    calc hi * 2 ^ N + lo < (hi + 1) * 2 ^ N := by rw [Nat.add_one_mul]; omega
      _ ≤ b * 2 ^ N := Nat.mul_le_mul_right _ h
      _ = 2 ^ N * b := Nat.mul_comm ..

/-- Settles O33: the remainder is in the range of the divisor (`rep_tmod`). -/
theorem divideFullWidth : Obligations.DivideFullWidth := by
  unfold Obligations.DivideFullWidth
  intro N sg rd re ra rb rc s _
  refine ⟨fun hne => decode_of_encode_eq (i := .divfw sg rd re ra rb rc) rfl (bne_iff_ne.2 hne),
    decode_divfw_sameDestination sg.bit rd ra rb rc, fun hi lo b D hne ha hb hc hD => ?_, faults_divfw sg⟩
  obtain rfl : s.cfg.width = N := ha.1
  split
  next hzero =>
    have hexec := exec_divfw sg hne ha hb hc
    rw [State.writeDivfw, if_pos ((val_eq_zero_iff sg b).2 hzero)] at hexec
    exact writesTwo_of_writeQR hne hexec (bits_val .u lo) (bits_val .u lo)
  next hzero =>
    have hb0 := mt (val_eq_zero_iff sg b).1 hzero
    have hD0 : sg = .u → 0 ≤ D := fun hsg => by
      have hhi := val_unsigned_nonneg hi hsg
      rw [hD]
      positivity
    refine ⟨_, _, writesTwo_divfw hne ha hb hc hD hzero, rfl,
      val_bits (width_pos s.cfg) (rep_tmod hD0 (rep_val sg b) hb0), ?_⟩
    rintro rfl
    rw [hD]
    exact overflow_divfw_unsigned lo.isLt (by simpa [val] using hb0)

/-! ### The division identity -/

theorem bits_mul_int (N : Nat) (u v : Int) : bits N (u * v) = bits N u * bits N v := BitVec.ofInt_mul ..

/-- Settles O50: the exact quotient and remainder meet the identity, so their patterns do, and so do the readings of the
patterns where the quotient is in range. -/
theorem divisionIdentity : Obligations.DivisionIdentity := by
  unfold Obligations.DivisionIdentity
  intro N sg rd re ra rb s a b _ hne ha hb hzero
  obtain rfl : s.cfg.width = N := ha.1
  have hpos := width_pos s.cfg
  have hb0 := mt (val_eq_zero_iff sg b).1 hzero
  obtain ⟨t, ht, hquot, hrem, hframe, -⟩ := writesTwo_div sg hne ha hb hzero
  have hidentity := Int.mul_tdiv_add_tmod (val sg a) (val sg b)
  have hval := val_bits hpos (rep_tmod (val_unsigned_nonneg a) (rep_val sg b) hb0)
  refine ⟨t, _, _, ht, hquot, hrem, ?_, fun hov => ?_, ?_, ?_⟩
  · have hbits := congrArg (bits s.cfg.width) hidentity
    rw [bits_add_int, bits_mul_int, bits_val, bits_val] at hbits
    exact hbits.symm
  · rw [hframe] at hov
    rw [hval, val_bits hpos (overflow_eq_false_iff.1 hov), hidentity]
  · rw [hval, Int.natAbs_tmod]
    exact Nat.mod_lt _ (Int.natAbs_pos.2 hb0)
  · rw [hval, Int.sign_tmod, ← Int.sign_eq_zero_iff_zero, Int.sign_tmod]
    split
    next => exact .inl rfl
    next => exact .inr rfl

end Sys2Proof.Machine

/-! ## The long-division unit

udivmod (R193, R194, R196). The digit loop keeps the invariant that the words above the next digit's position are less
than the divisor (`divideLoop_spec`). Then the segment that a turn divides is all that is left from its position on, below
2^64 times the divisor (`divideDigit_eq`), and the normalized divisor's top word makes the trial digit the true digit or
at most 2 more (`digit_le_trialDigit`, `trialDigit_le`). -/

namespace Sys2Proof.Machine

/-! ### Parts of a list of words -/

theorem two_pow_words_succ (k : Nat) : 2 ^ (64 * (k + 1)) = 2 ^ 64 * 2 ^ (64 * k) := by
  rw [Nat.mul_succ, Nat.add_comm, pow_add]

theorem wordsVal_drop (ws : List Word) (k : Nat) : wordsVal (ws.drop k) = wordsVal ws / 2 ^ (64 * k) := by
  induction k generalizing ws with
  | zero => simp
  | succ k ih =>
    cases ws with
    | nil => simp [wordsVal]
    | cons w ws =>
      rw [List.drop_succ_cons, ih, two_pow_words_succ, ← Nat.div_div_eq_div_mul, wordsVal,
        Nat.add_mul_div_left _ _ (Nat.two_pow_pos 64), Nat.div_eq_of_lt w.isLt, Nat.zero_add]

theorem wordsVal_drop_add (ws : List Word) (j k : Nat) :
    wordsVal (ws.drop (j + k)) = wordsVal (ws.drop j) / 2 ^ (64 * k) := by
  rw [← List.drop_drop, wordsVal_drop]

theorem wordsVal_take (ws : List Word) (k : Nat) : wordsVal (ws.take k) = wordsVal ws % 2 ^ (64 * k) := by
  induction k generalizing ws with
  | zero => simp [wordsVal, Nat.mod_one]
  | succ k ih =>
    cases ws with
    | nil => simp [wordsVal]
    | cons w ws =>
      rw [List.take_succ_cons, wordsVal, ih, two_pow_words_succ, Nat.mod_mul, wordsVal,
        Nat.add_mul_div_left _ _ (Nat.two_pow_pos 64), Nat.div_eq_of_lt w.isLt, Nat.zero_add, Nat.add_mul_mod_self_left,
        Nat.mod_eq_of_lt w.isLt]

theorem wordNat_eq (ws : List Word) (k : Nat) : wordNat ws k = wordsVal ws / 2 ^ (64 * k) % 2 ^ 64 := by
  rw [← wordsVal_drop, wordNat]
  induction k generalizing ws with
  | zero =>
    cases ws with
    | nil => rfl
    | cons w ws => simp [wordsVal, Nat.mod_eq_of_lt w.isLt]
  | succ k ih =>
    cases ws with
    | nil => simp [wordsVal]
    | cons w ws => exact ih ws

/-- The two words at j + k + 1 and j + k hold all that lies above the k words from j on, where nothing lies above them. -/
theorem top_two_words {ws : List Word} {j k : Nat} (h : wordsVal (ws.drop j) < 2 ^ (64 * (k + 2))) :
    wordNat ws (j + k + 1) * 2 ^ 64 + wordNat ws (j + k) = wordsVal (ws.drop j) / 2 ^ (64 * k) := by
  have htwo : wordsVal (ws.drop j) / 2 ^ (64 * k) < 2 ^ 64 * 2 ^ 64 := by
    rwa [Nat.div_lt_iff_lt_mul (Nat.two_pow_pos _), Nat.mul_assoc, ← two_pow_words_succ, ← two_pow_words_succ]
  rw [wordNat_eq, wordNat_eq, ← wordsVal_drop, ← wordsVal_drop, Nat.add_assoc, wordsVal_drop_add, wordsVal_drop_add,
    two_pow_words_succ, Nat.mul_comm (2 ^ 64), ← Nat.div_div_eq_div_mul]
  generalize wordsVal (ws.drop j) / 2 ^ (64 * k) = num at *
  omega

/-- The words from the most significant nonzero one down hold the whole value (R16). -/
theorem wordsVal_lt_minLastIndex (ws : List Word) : wordsVal ws < 2 ^ (64 * (minLastIndex ws + 1)) := by
  induction ws with
  | nil => simp [wordsVal]
  | cons w ws ih =>
    have hw := w.isLt
    rw [minLastIndex]
    split
    next hzero => rw [wordsVal, hzero]; exact hw
    next =>
      rw [wordsVal, two_pow_words_succ]
      generalize 2 ^ (64 * (minLastIndex ws + 1)) = P at *
      omega

theorem minLastIndex_of_eq_zero {ws : List Word} (h : wordsVal ws = 0) : minLastIndex ws = 0 := by
  cases ws with
  | nil => rfl
  | cons w ws =>
    rw [wordsVal] at h
    rw [minLastIndex, if_pos (by omega)]

/-- The word at the index of the most significant nonzero one is not zero (R16). -/
theorem two_pow_minLastIndex_le {ws : List Word} (h : wordsVal ws ≠ 0) : 2 ^ (64 * minLastIndex ws) ≤ wordsVal ws := by
  induction ws with
  | nil => exact absurd rfl h
  | cons w ws ih =>
    rw [minLastIndex]
    split
    next => simpa [Nat.one_le_iff_ne_zero] using h
    next hne =>
      have := ih hne
      rw [wordsVal, two_pow_words_succ]
      omega

/-! ### Division by one word -/

/-- Fast path 2 of R193, from the top word down. -/
theorem shortDivide_eq {v : Nat} (hpos : 0 < v) (ws : List Word) :
    wordsVal (shortDivide v ws).1 = wordsVal ws / v ∧ (shortDivide v ws).2 = wordsVal ws % v := by
  induction ws with
  | nil => simp [shortDivide, wordsVal]
  | cons w ws ih =>
    obtain ⟨hquot, hrem⟩ := ih
    have hw := w.isLt
    have hlt := Nat.mod_lt (wordsVal ws) hpos
    have hdigit : (wordsVal ws % v * 2 ^ 64 + w.toNat) / v < 2 ^ 64 := by
      rw [Nat.div_lt_iff_lt_mul hpos, Nat.mul_comm (2 ^ 64)]
      calc wordsVal ws % v * 2 ^ 64 + w.toNat < (wordsVal ws % v + 1) * 2 ^ 64 := by omega
        _ ≤ v * 2 ^ 64 := Nat.mul_le_mul_right _ hlt
    have hsplit : w.toNat + 2 ^ 64 * wordsVal ws =
        wordsVal ws % v * 2 ^ 64 + w.toNat + v * (2 ^ 64 * (wordsVal ws / v)) := by
      conv_lhs => rw [← Nat.div_add_mod (wordsVal ws) v]
      ring
    simp only [shortDivide, wordsVal, hquot, hrem, BitVec.toNat_ofNat, Nat.mod_eq_of_lt hdigit]
    rw [hsplit, Nat.add_mul_div_left _ _ hpos, Nat.add_mul_mod_self_left]
    exact ⟨rfl, rfl⟩

/-! ### The trial digit -/

/-- The divisor of the general case: mv + 1 words, the top bit of the top one set (R194). -/
structure Normalized (mv vn : Nat) : Prop where
  lt : vn < 2 ^ (64 * (mv + 1))
  top : 2 ^ 63 ≤ vn / 2 ^ (64 * mv)

theorem Normalized.pos {mv vn : Nat} (h : Normalized mv vn) : 0 < vn := by
  refine Nat.pos_of_ne_zero ?_
  rintro rfl
  simpa using h.top

/-- The trial digit of R194 for a segment of value `seg`: what lies above word mv, divided by the divisor's top word. -/
def trialDigit (mv vn seg : Nat) : Nat := min (seg / 2 ^ (64 * mv) / (vn / 2 ^ (64 * mv))) (2 ^ 64 - 1)

/-- The trial digit is never too small (R196): leaving out the low words makes the divisor no larger. -/
theorem digit_le_trialDigit {mv vn seg : Nat} (hvn : Normalized mv vn) (hseg : seg < 2 ^ 64 * vn) :
    seg / vn ≤ trialDigit mv vn seg := by
  have htop := hvn.top
  have hdigit : seg / vn < 2 ^ 64 := (Nat.div_lt_iff_lt_mul hvn.pos).2 hseg
  refine le_min ?_ (by omega)
  rw [Nat.div_div_eq_div_mul]
  exact Nat.div_le_div_left (Nat.mul_div_le vn _) (Nat.mul_pos (Nat.two_pow_pos _) (by omega))

/-- The trial digit is at most 2 too large (R196). Let it be d + 2, the divisor's top word t, and P that word's weight: d
times the divisor is at most d · (t + 1) · P, and as the top bit of t is set, d ≤ 2 · t, so this is at most the
(d + 2) · t · P that the segment holds. -/
theorem trialDigit_le {mv vn : Nat} (hvn : Normalized mv vn) (seg : Nat) : trialDigit mv vn seg ≤ seg / vn + 2 := by
  have htop := hvn.top
  have hmul : trialDigit mv vn seg * (vn / 2 ^ (64 * mv)) ≤ seg / 2 ^ (64 * mv) :=
    (Nat.mul_le_mul_right _ (min_le_left ..)).trans (Nat.div_mul_le_self ..)
  have hword : trialDigit mv vn seg ≤ 2 ^ 64 - 1 := min_le_right ..
  have hpos : 0 < 2 ^ (64 * mv) := Nat.two_pow_pos _
  have hvnhi := Nat.lt_mul_div_succ vn hpos
  have hseglo := Nat.mul_div_le seg (2 ^ (64 * mv))
  generalize trialDigit mv vn seg = q at *
  generalize vn / 2 ^ (64 * mv) = t at *
  generalize seg / 2 ^ (64 * mv) = n at *
  generalize 2 ^ (64 * mv) = P at *
  rw [← Nat.sub_le_iff_le_add, Nat.le_div_iff_mul_le hvn.pos]
  obtain hsmall | hlarge := Nat.lt_or_ge q 2
  · simp [Nat.sub_eq_zero_of_le hsmall.le]
  · obtain ⟨d, rfl⟩ := Nat.exists_eq_add_of_le' hlarge
    calc d * vn ≤ d * (P * (t + 1)) := Nat.mul_le_mul_left _ hvnhi.le
      _ = P * (d * t + d) := by ring
      _ ≤ P * ((d + 2) * t) := Nat.mul_le_mul_left _ (by rw [Nat.add_mul]; omega)
      _ ≤ P * n := Nat.mul_le_mul_left _ hmul
      _ ≤ seg := hseglo

/-- The correction loop ends at the true digit, after as many decrements as the trial digit is too large (R194). -/
theorem correctDigit_eq {vn : Nat} (hvn : 0 < vn) (seg qhat c : Nat) :
    correctDigit seg vn qhat c = (min qhat (seg / vn), c + (qhat - seg / vn)) := by
  induction qhat generalizing c with
  | zero => simp [correctDigit]
  | succ q ih =>
    have hlarge : seg < (q + 1) * vn ↔ seg / vn < q + 1 := (Nat.div_lt_iff_lt_mul hvn).symm
    rw [correctDigit, ih]
    simp only [hlarge]
    split <;> exact Prod.ext (by simp; omega) (by simp; omega)

/-! ### The digit loop -/

/-- One turn of R194 where the words above position j are less than the divisor: all that is left from position j on is
divided, and the trial digit is decremented at most twice (R196). -/
theorem divideDigit_eq {mv vn j : Nat} {un : List Word} (hvn : Normalized mv vn)
    (habove : wordsVal (un.drop (j + 1)) < vn) :
    ∃ c ≤ 2, divideDigit mv vn un j = (un.take j ++ toWords (mv + 2) (wordsVal (un.drop j) % vn) ++
      un.drop (j + mv + 2), wordsVal (un.drop j) / vn, c) ∧ wordsVal (un.drop (j + mv + 2)) = 0 := by
  have hseg : wordsVal (un.drop j) < 2 ^ 64 * vn := by
    rw [wordsVal_drop_add un j 1] at habove
    omega
  have hfits : wordsVal (un.drop j) < 2 ^ (64 * (mv + 2)) := by
    rw [two_pow_words_succ]
    exact hseg.trans_le (Nat.mul_le_mul_left _ hvn.lt.le)
  have hnum := top_two_words hfits
  have hqhat := digit_le_trialDigit hvn hseg
  have hcorr := trialDigit_le hvn (wordsVal (un.drop j))
  have hhigh : wordsVal (un.drop (j + mv + 2)) = 0 := by
    rw [Nat.add_assoc, wordsVal_drop_add, Nat.div_eq_of_lt hfits]
  have hmod : wordsVal (un.drop j) - wordsVal (un.drop j) / vn * vn = wordsVal (un.drop j) % vn := by
    rw [Nat.mul_comm, Nat.mod_eq_sub]
  refine ⟨trialDigit mv vn (wordsVal (un.drop j)) - wordsVal (un.drop j) / vn, by omega, ?_, hhigh⟩
  simp only [divideDigit, hnum, wordsVal_take, Nat.mod_eq_of_lt hfits]
  rw [← trialDigit, correctDigit_eq hvn.pos, min_eq_right hqhat, Nat.zero_add, hmod]

/-- After a turn the words from position j on are less than the divisor, and what the turn took away is the digit times
the divisor at the digit's place (R194). -/
theorem divideDigit_spec {mv vn j : Nat} {un : List Word} (hvn : Normalized mv vn)
    (hlen : j + 1 + mv + 1 ≤ un.length) (habove : wordsVal (un.drop (j + 1)) < vn) :
    (divideDigit mv vn un j).1.length = un.length ∧ wordsVal ((divideDigit mv vn un j).1.drop j) < vn ∧
      wordsVal un = 2 ^ (64 * j) * ((divideDigit mv vn un j).2.1 * vn) + wordsVal (divideDigit mv vn un j).1 ∧
      (divideDigit mv vn un j).2.1 < 2 ^ 64 ∧ (divideDigit mv vn un j).2.2 ≤ 2 := by
  obtain ⟨c, hc, hturn, hhigh⟩ := divideDigit_eq hvn habove
  have hmod := Nat.mod_lt (wordsVal (un.drop j)) hvn.pos
  have htake : (un.take j).length = j := List.length_take_of_le (by omega)
  have hword : wordsVal (toWords (mv + 2) (wordsVal (un.drop j) % vn)) = wordsVal (un.drop j) % vn := by
    rw [wordsVal_toWords, Nat.mod_eq_of_lt]
    exact hmod.trans (hvn.lt.trans_le (Nat.pow_le_pow_right (by decide) (by omega)))
  have hrest : wordsVal (toWords (mv + 2) (wordsVal (un.drop j) % vn) ++ un.drop (j + mv + 2)) =
      wordsVal (un.drop j) % vn := by
    rw [wordsVal_append, hhigh, hword, Nat.mul_zero, Nat.add_zero]
  have hseg : wordsVal (un.drop j) / 2 ^ 64 < vn := by
    rwa [wordsVal_drop_add un j 1] at habove
  rw [hturn]
  simp only [List.append_assoc]
  refine ⟨by simp; omega, ?_, ?_, (Nat.div_lt_iff_lt_mul hvn.pos).2 (by omega), hc⟩
  · rw [List.drop_left' htake, hrest]
    exact hmod
  · conv_lhs => rw [← List.take_append_drop j un, wordsVal_append, ← Nat.div_add_mod (wordsVal (un.drop j)) vn]
    rw [wordsVal_append, hrest, htake]
    ring

/-- The digit loop divides (R194): what it leaves is less than the divisor, and its digits are the quotient. Each digit
is decremented at most twice (R196). By induction on the number of digits still to find. -/
theorem divideLoop_spec {mv vn : Nat} (hvn : Normalized mv vn) (count : Nat) {un : List Word}
    (hlen : count + mv + 1 ≤ un.length) (habove : wordsVal (un.drop count) < vn) :
    (divideLoop mv vn count un).2.1.length = count ∧ wordsVal (divideLoop mv vn count un).1 < vn ∧
      wordsVal un = wordsVal (divideLoop mv vn count un).2.1 * vn + wordsVal (divideLoop mv vn count un).1 ∧
      ∀ c ∈ (divideLoop mv vn count un).2.2, c ≤ 2 := by
  induction count generalizing un with
  | zero => exact ⟨rfl, habove, by simp [divideLoop, wordsVal], by simp [divideLoop]⟩
  | succ j ih =>
    obtain ⟨hlen', habove', hvalue, hdigit, hcorr⟩ := divideDigit_spec hvn hlen habove
    obtain ⟨ihlen, ihrem, ihvalue, ihcorr⟩ := ih (un := (divideDigit mv vn un j).1) (by omega) habove'
    simp only [divideLoop]
    refine ⟨by simp [ihlen], ihrem, ?_, fun c hc => ?_⟩
    · rw [hvalue, ihvalue, wordsVal_append, ihlen, wordsVal_singleton, BitVec.toNat_ofNat, Nat.mod_eq_of_lt hdigit]
      ring
    · obtain hc | rfl := List.mem_append.1 hc |>.imp_right List.mem_singleton.1
      · exact ihcorr c hc
      · exact hcorr

/-! ### Normalization -/

/-- Shifted by its leading zeros a word has its top bit set (R194). -/
theorem mul_two_pow_clz64 {w : Nat} (h0 : w ≠ 0) (hw : w < 2 ^ 64) :
    2 ^ 63 ≤ w * 2 ^ clz64 w ∧ (w + 1) * 2 ^ clz64 w ≤ 2 ^ 64 := by
  have hlog : Nat.log2 w < 64 := (Nat.log2_lt h0).2 hw
  have hlo := Nat.log2_self_le h0
  have hhi : w < 2 ^ (Nat.log2 w + 1) := Nat.lt_log2_self
  constructor
  · calc 2 ^ 63 = 2 ^ Nat.log2 w * 2 ^ clz64 w := by rw [← pow_add, clz64, Nat.add_sub_cancel' (by omega)]
      _ ≤ w * 2 ^ clz64 w := Nat.mul_le_mul_right _ hlo
  · calc (w + 1) * 2 ^ clz64 w ≤ 2 ^ (Nat.log2 w + 1) * 2 ^ clz64 w := Nat.mul_le_mul_right _ hhi
      _ = 2 ^ 64 := by rw [← pow_add, clz64]; congr 1; omega

/-- The word at the index of the most significant nonzero one holds what lies above the words below it (R16). -/
theorem wordNat_minLastIndex (ws : List Word) :
    wordNat ws (minLastIndex ws) = wordsVal ws / 2 ^ (64 * minLastIndex ws) := by
  rw [wordNat_eq, Nat.mod_eq_of_lt]
  rw [Nat.div_lt_iff_lt_mul (Nat.two_pow_pos _), ← two_pow_words_succ]
  exact wordsVal_lt_minLastIndex ws

/-- The divisor, shifted by the leading zeros of its top word, is normalized (R194). -/
theorem normalized_shift {v : List Word} (hv : wordsVal v ≠ 0) : Normalized (minLastIndex v)
    (wordsVal v * 2 ^ clz64 (wordNat v (minLastIndex v))) := by
  have htop := wordNat_minLastIndex v
  have hpos : 0 < 2 ^ (64 * minLastIndex v) := Nat.two_pow_pos _
  have hne : wordNat v (minLastIndex v) ≠ 0 := by
    rw [htop]
    exact (Nat.div_pos (two_pow_minLastIndex_le hv) hpos).ne'
  obtain ⟨hlo, hhi⟩ := mul_two_pow_clz64 hne (BitVec.isLt _)
  rw [htop] at hlo hhi ⊢
  have hvlo := Nat.div_mul_le_self (wordsVal v) (2 ^ (64 * minLastIndex v))
  have hvhi := Nat.lt_mul_div_succ (wordsVal v) hpos
  generalize clz64 _ = s at *
  generalize wordsVal v / _ = t at *
  constructor
  · calc wordsVal v * 2 ^ s < 2 ^ (64 * minLastIndex v) * (t + 1) * 2 ^ s :=
        Nat.mul_lt_mul_of_pos_right hvhi (Nat.two_pow_pos s)
      _ ≤ 2 ^ (64 * minLastIndex v) * 2 ^ 64 := by rw [Nat.mul_assoc]; exact Nat.mul_le_mul_left _ hhi
      _ = 2 ^ (64 * (minLastIndex v + 1)) := by rw [two_pow_words_succ, Nat.mul_comm]
  · rw [Nat.le_div_iff_mul_le hpos]
    calc 2 ^ 63 * 2 ^ (64 * minLastIndex v) ≤ t * 2 ^ s * 2 ^ (64 * minLastIndex v) := Nat.mul_le_mul_right _ hlo
      _ = t * 2 ^ (64 * minLastIndex v) * 2 ^ s := by ring
      _ ≤ wordsVal v * 2 ^ s := Nat.mul_le_mul_right _ hvlo

theorem minLastIndex_le_of_lt {u v : List Word} (hv : wordsVal v ≠ 0) (hlt : wordsVal v < wordsVal u) :
    minLastIndex v ≤ minLastIndex u := by
  have hpow := (two_pow_minLastIndex_le hv).trans_lt (hlt.trans (wordsVal_lt_minLastIndex u))
  have := (Nat.pow_lt_pow_iff_right (by decide)).1 hpow
  omega

/-- One word more holds the shifted dividend (R194). -/
theorem wordsVal_shiftedDividend (u : List Word) {s : Nat} (hs : s ≤ 63) :
    wordsVal (toWords (minLastIndex u + 2) (wordsVal u * 2 ^ s)) = wordsVal u * 2 ^ s := by
  rw [wordsVal_toWords, Nat.mod_eq_of_lt]
  calc wordsVal u * 2 ^ s < 2 ^ (64 * (minLastIndex u + 1)) * 2 ^ 64 :=
        Nat.mul_lt_mul'' (wordsVal_lt_minLastIndex u) (Nat.pow_lt_pow_right (by decide) (by omega))
    _ = 2 ^ (64 * (minLastIndex u + 2)) := by rw [two_pow_words_succ (minLastIndex u + 1), Nat.mul_comm]

/-- Where the digit loop begins, the words above the first digit's position are less than the divisor (R194). -/
theorem shiftedDividend_drop_lt {mv vn s : Nat} {u : List Word} (hvn : Normalized mv vn) (hs : s ≤ 63)
    (hindex : mv ≤ minLastIndex u) :
    wordsVal ((toWords (minLastIndex u + 2) (wordsVal u * 2 ^ s)).drop (minLastIndex u + 1 - mv)) < vn := by
  rw [wordsVal_drop, wordsVal_shiftedDividend u hs, Nat.div_lt_iff_lt_mul (Nat.two_pow_pos _)]
  calc wordsVal u * 2 ^ s < 2 ^ (64 * (minLastIndex u + 1)) * 2 ^ 63 :=
        Nat.mul_lt_mul_of_lt_of_le (wordsVal_lt_minLastIndex u) (Nat.pow_le_pow_right (by decide) hs) (Nat.two_pow_pos 63)
    _ = 2 ^ 63 * 2 ^ (64 * mv) * 2 ^ (64 * (minLastIndex u + 1 - mv)) := by
      rw [← pow_add, ← pow_add, ← pow_add]
      congr 1
      omega
    _ ≤ vn * 2 ^ (64 * (minLastIndex u + 1 - mv)) :=
      Nat.mul_le_mul_right _ ((Nat.le_div_iff_mul_le (Nat.two_pow_pos _)).1 hvn.top)

/-- The general case is exact, with at most two decrements of each digit (R194, R196): the shift leaves the quotient as it
is and is taken back from the remainder. -/
theorem knuthDivide_spec {u v : List Word} (hv : wordsVal v ≠ 0) (hlt : wordsVal v < wordsVal u) :
    wordsVal (knuthDivide u v).1 = wordsVal u / wordsVal v ∧ (knuthDivide u v).2.1 = wordsVal u % wordsVal v ∧
      ∀ c ∈ (knuthDivide u v).2.2, c ≤ 2 := by
  have hnorm := normalized_shift hv
  have hclz : clz64 (wordNat v (minLastIndex v)) ≤ 63 := Nat.sub_le ..
  have hindex := minLastIndex_le_of_lt hv hlt
  simp only [knuthDivide, Nat.mod_eq_of_lt hnorm.lt]
  generalize clz64 _ = s at *
  have hshift : 0 < 2 ^ s := Nat.two_pow_pos s
  obtain ⟨-, hrem, hvalue, hcorr⟩ := divideLoop_spec hnorm (minLastIndex u + 1 - minLastIndex v)
    (un := toWords (minLastIndex u + 2) (wordsVal u * 2 ^ s)) (by simp; omega)
    (shiftedDividend_drop_lt hnorm hclz hindex)
  rw [wordsVal_shiftedDividend u hclz] at hvalue
  generalize divideLoop _ _ _ _ = out at *
  have hsum : wordsVal out.1 + wordsVal v * 2 ^ s * wordsVal out.2.1 = wordsVal u * 2 ^ s := by
    rw [hvalue, Nat.add_comm, Nat.mul_comm]
  obtain ⟨hquot, hmod⟩ := (Nat.div_mod_unique hnorm.pos).2 ⟨hsum, hrem⟩
  rw [Nat.mul_div_mul_right _ _ hshift] at hquot
  rw [Nat.mul_mod_mul_right] at hmod
  refine ⟨hquot.symm, ?_, hcorr⟩
  rw [wordsVal_take, Nat.mod_eq_of_lt (hrem.trans hnorm.lt), ← hmod, Nat.mul_div_cancel _ hshift]

/-! ### The unit -/

/-- udivmod gives the quotient and the remainder, case by case of R193 and R194. -/
theorem udivmodRef_eq (u : List Word) {v : List Word} (hv : wordsVal v ≠ 0) :
    udivmodRef u v = some (wordsVal u / wordsVal v, wordsVal u % wordsVal v) := by
  have hpos := Nat.pos_of_ne_zero hv
  rw [udivmodRef, if_neg hv]
  split
  next hle =>
    split
    next heq => rw [heq, Nat.div_self hpos, Nat.mod_self]
    next hne => rw [Nat.div_eq_of_lt (by omega), Nat.mod_eq_of_lt (by omega)]
  next hgt =>
    split
    next hword =>
      have hv0 : wordNat v 0 = wordsVal v := by
        rw [← hword, wordNat_minLastIndex, hword, Nat.mul_zero, pow_zero, Nat.div_one]
      have hu : wordsVal (u.take (minLastIndex u + 1)) = wordsVal u := by
        rw [wordsVal_take, Nat.mod_eq_of_lt (wordsVal_lt_minLastIndex u)]
      obtain ⟨hquot, hrem⟩ := shortDivide_eq hpos (u.take (minLastIndex u + 1))
      rw [hu] at hquot hrem
      simp only [hv0, hquot, hrem]
    next =>
      obtain ⟨hquot, hrem, -⟩ := knuthDivide_spec hv (Nat.lt_of_not_le hgt)
      simp only [hquot, hrem]

/-- Settles O60: exactness by the cases of udivmod, the bound by the digit loop's invariant (`divideLoop_spec`). -/
theorem longDivisionIsExactWithTwoCorrections : Obligations.LongDivisionIsExactWithTwoCorrections := by
  unfold Obligations.LongDivisionIsExactWithTwoCorrections
  refine ⟨fun u v hv => udivmodRef_eq u hv, fun u v hindex hlt => ?_⟩
  have hv : wordsVal v ≠ 0 := fun hzero => by simp [minLastIndex_of_eq_zero hzero] at hindex
  exact (knuthDivide_spec hv hlt).2.2

end Sys2Proof.Machine

/-! ## Division by the long-division unit

The sign correction (R195) makes the truncating quotient and remainder out of those of the magnitudes (`divideRef_eq`),
and these are what the commands write. -/

namespace Sys2Proof.Machine

/-- An integer is its magnitude, negated where it is negative. -/
theorem eq_or_eq_neg_natAbs (a : Int) : (a < 0 ∧ a = -(a.natAbs : Int)) ∨ (¬a < 0 ∧ a = (a.natAbs : Int)) := by
  omega

/-- A truncating quotient is the quotient of the magnitudes, negated where the signs differ (R195). -/
theorem tdiv_eq_sign_magnitude (a b : Int) :
    Int.tdiv a b = if (decide (a < 0) != decide (b < 0)) = true then -((a.natAbs / b.natAbs : Nat) : Int)
      else ((a.natAbs / b.natAbs : Nat) : Int) := by
  rw [Int.ofNat_tdiv]
  obtain ⟨ha, hmag⟩ | ⟨ha, hmag⟩ := eq_or_eq_neg_natAbs a <;> conv_lhs => rw [hmag]
  all_goals
    obtain ⟨hb, hmag⟩ | ⟨hb, hmag⟩ := eq_or_eq_neg_natAbs b <;> conv_lhs => rw [hmag]
    all_goals simp [ha, hb, Int.neg_tdiv, Int.tdiv_neg]

/-- A truncating remainder is the remainder of the magnitudes with the dividend's sign (R195). -/
theorem tmod_eq_sign_magnitude (a b : Int) :
    Int.tmod a b = if a < 0 then -((a.natAbs % b.natAbs : Nat) : Int) else ((a.natAbs % b.natAbs : Nat) : Int) := by
  rw [Int.ofNat_tmod]
  have hb : Int.tmod a b = Int.tmod a b.natAbs := by
    obtain ⟨-, hb⟩ | ⟨-, hb⟩ := eq_or_eq_neg_natAbs b <;> conv_lhs => rw [hb]
    exact Int.tmod_neg ..
  rw [hb]
  split
  next h => rw [← Int.neg_tmod, Int.ofNat_natAbs_of_nonpos h.le, Int.neg_neg]
  next h => rw [Int.natAbs_of_nonneg (Int.not_lt.1 h)]

/-- The long-division unit with sign correction gives the truncating quotient, the remainder, and whether the quotient
is out of range (R195). -/
theorem divideRef_eq {lu lv : Nat} (n : Nat) (sg : Sign) {a b : Int} (ha : a.natAbs < 2 ^ (64 * lu))
    (hb : b.natAbs < 2 ^ (64 * lv)) (hne : b ≠ 0) :
    divideRef n lu lv sg a b = some (Int.tdiv a b, Int.tmod a b, overflow (64 * n) sg (Int.tdiv a b)) := by
  have hu : wordsVal (toWords lu a.natAbs) = a.natAbs := by rw [wordsVal_toWords, Nat.mod_eq_of_lt ha]
  have hv : wordsVal (toWords lv b.natAbs) = b.natAbs := by rw [wordsVal_toWords, Nat.mod_eq_of_lt hb]
  rw [divideRef, udivmodRef_eq _ (by rw [hv]; exact Int.natAbs_ne_zero.2 hne), hu, hv, tdiv_eq_sign_magnitude,
    tmod_eq_sign_magnitude]

/-- Settles O59: with the magnitudes held in the words that R195 names, the unit's results are those that the commands
write (`writesTwo_div`, `writesTwo_divd`, `writesTwo_divfw`). -/
theorem longDivisionRefines : Obligations.LongDivisionRefines := by
  unfold Obligations.LongDivisionRefines
  rintro N n sg rd re ra rb rc s a b c w - rfl hne ha hb hc hw
  obtain rfl : s.cfg.width = N := ha.1
  have hpos := width_pos s.cfg
  refine ⟨fun h0 => ?_, fun h0 => ?_, fun h0 => ?_⟩
  · exact ⟨_, divideRef_eq _ sg (natAbs_val_lt hpos sg a) (natAbs_val_lt hpos sg b) (mt (val_eq_zero_iff sg b).1 h0),
      writesTwo_div sg hne ha hb h0⟩
  · exact ⟨_, divideRef_eq _ sg (natAbs_val_lt hpos sg a) (natAbs_val_lt (by decide) sg w)
      (mt (val_eq_zero_iff sg w).1 h0), writesTwo_divd sg hne ha hw h0⟩
  · have hD : (val sg a * (2 ^ s.cfg.width : Nat) + (b.toNat : Int)).natAbs < 2 ^ (64 * (2 * s.cfg.words)) := by
      rw [← val_append_eq hpos, Nat.mul_left_comm, ← width_eq, Nat.two_mul]
      exact natAbs_val_lt (by omega) sg (a ++ b)
    exact ⟨_, divideRef_eq _ sg hD (natAbs_val_lt hpos sg c) (mt (val_eq_zero_iff sg c).1 h0),
      writesTwo_divfw hne ha hb hc rfl h0⟩

end Sys2Proof.Machine

/-! ## Complement, negation and magnitude

NOT, NEG and MAG (R230 to R235). NOT and NEG write V[rd] and OV, MAG writes V[rd] alone. NEG's law on OV rests on the two
patterns that are their own negations, zero and the signed minimum (`neg_eq_self_and_ne_zero_iff`). -/

namespace Sys2Proof.Machine

/-! ### Patterns of complements, negations and magnitudes -/

theorem bits_neg_val {N : Nat} (sg : Sign) (x : BitVec N) : bits N (-(val sg x)) = -x := by
  rw [bits_neg_int, bits_val]

/-- The successor of the complement has the pattern of the negation (R231, R235). -/
theorem bits_not_add_one {N : Nat} (sg : Sign) (x : BitVec N) : bits N (val sg (~~~x) + 1) = -x := by
  have hone : bits N 1 = 1#N := bits_natCast N 1
  rw [bits_add_int, bits_val, hone, BitVec.neg_eq_not_add]

/-- An unsigned value is its own magnitude (R233). -/
theorem bits_natAbs_unsigned {N : Nat} (x : BitVec N) : bits N ((val .u x).natAbs : Int) = x := bits_val .u x

/-- The signed magnitude is the operand or its negation by the sign bit (R233). -/
theorem bits_natAbs_signed {N : Nat} (x : BitVec N) :
    bits N ((val .s x).natAbs : Int) = if x.msb then -x else x := by
  have hmsb : x.msb = true ↔ val .s x < 0 := by rw [BitVec.msb_eq_toInt, decide_eq_true_iff, val]
  obtain ⟨hneg, habs⟩ | ⟨hnonneg, habs⟩ := eq_or_eq_neg_natAbs (val .s x)
  · rw [if_pos (hmsb.2 hneg), ← bits_neg_val .s x, Int.eq_neg_comm.1 habs]
  · rw [if_neg (mt hmsb.1 hnonneg), ← habs, bits_val]

/-- Unsigned NEG sets OV for the operand 0 alone: 0 is the least unsigned value (R231). -/
theorem negOverflow_unsigned {N : Nat} (x : BitVec N) : negOverflow .u x = (x == 0) := by
  rw [negOverflow, minS]
  rfl

theorem negOverflow_signed {N : Nat} (x : BitVec N) : negOverflow .s x = (x == BitVec.intMin N) := by
  rw [negOverflow, bits_minS]

/-- Of the nonzero patterns only the signed minimum is its own negation: every other one changes its sign (R235). -/
theorem neg_eq_self_and_ne_zero_iff {N : Nat} (hN : 0 < N) (x : BitVec N) :
    (-x = x ∧ x ≠ 0) ↔ x = BitVec.intMin N := by
  constructor
  · rintro ⟨hself, hzero⟩
    by_contra hmin
    have hsign : (-x).msb = !x.msb := BitVec.msb_neg_of_ne_intMin_of_ne_zero hmin hzero
    rw [hself] at hsign
    exact Bool.not_ne_self _ hsign.symm
  · rintro rfl
    exact ⟨BitVec.neg_intMin, mt BitVec.intMin_eq_zero_iff.1 hN.ne'⟩

/-! ### What the commands do -/

theorem exec_mag {s : State} {ra : Reg} {x : BitVec s.cfg.width} (sg : Sign) (rd : Reg) (h : Holds s ra x) :
    exec (.mag sg rd ra) s = .next (s.writeV rd (bits s.cfg.width ((val sg x).natAbs : Int))) := by
  simp [exec, execMag, readVal_of_holds sg h]

/-- A command that writes one register and OV, and nothing else. -/
theorem writes_of_exec_setOV {N : Nat} {i : Instr} {s : State} {rd : Reg} {y : BitVec N} {ov : Bool}
    (hN : s.cfg.width = N) (h : exec i s = .next ((s.writeV rd y).setOV ov)) : Writes i s rd y ov :=
  ⟨_, h, writeV_holds s rd y hN, rfl, fun _ hne => writeV_reg_ne s y hne⟩

section
variable {N : Nat} {s : State} {ra : Reg} {x : BitVec N}

theorem writes_not (rd : Reg) (h : Holds s ra x) : Writes (.not rd ra) s rd (~~~x) false := by
  obtain rfl : s.cfg.width = N := h.1
  exact writes_of_exec_setOV rfl (exec_not rd h)

theorem writes_neg (sg : Sign) (rd : Reg) (h : Holds s ra x) :
    Writes (.neg sg rd ra) s rd (-x) (negOverflow sg x) := by
  obtain rfl : s.cfg.width = N := h.1
  rw [← bits_neg_val .u x]
  exact writes_of_exec_setOV rfl (exec_neg sg rd h)

theorem writes_mag (sg : Sign) (rd : Reg) (h : Holds s ra x) :
    Writes (.mag sg rd ra) s rd (bits N ((val sg x).natAbs : Int)) s.ov := by
  obtain rfl : s.cfg.width = N := h.1
  exact writes_of_exec rfl (exec_mag sg rd h)

end

/-- A command that starts with a read of an invalid source. -/
theorem faults_of_read {α : Type} {i : Instr} {s : State} {x : Except Cause α} {f : α → Except Cause State}
    (hexec : exec i s = command i s (x >>= f)) (hx : x = .error .uninit) : Faults i s 2 :=
  faults_of_body_error (k := .uninit) hexec (by rw [hx, bind_error])

/-! ### NOT, NEG and MAG -/

/-- Settles O34: NEG's OV is whether the operand is the least of its type, and MAG's result is the pattern of the
magnitude of its operand's value. -/
theorem complementNegateMagnitude : Obligations.ComplementNegateMagnitude := by
  unfold Obligations.ComplementNegateMagnitude
  intro N sg rd ra s _
  refine ⟨decode_of_encode_eq (i := .not rd ra) rfl rfl, decode_of_encode_eq (i := .neg sg rd ra) rfl rfl,
    decode_of_encode_eq (i := .mag sg rd ra) rfl rfl, fun x h => ?_, fun h => ?_⟩
  · rw [← negOverflow_unsigned x, ← negOverflow_signed x, ← bits_natAbs_signed x]
    have hmag := writes_mag .u rd h
    rw [bits_natAbs_unsigned] at hmag
    exact ⟨writes_not rd h, writes_neg .u rd h, writes_neg .s rd h, hmag, writes_mag .s rd h⟩
  · exact ⟨faults_of_read rfl (readV_of_invalid h), faults_of_read rfl (readV_of_invalid h),
      faults_of_read rfl (readVal_of_invalid sg h)⟩

/-! ### The laws of NOT, NEG and MAG -/

/-- A command that writes `y`, and then one that makes `x` out of it. -/
theorem Writes.exists_next_then {N M : Nat} {i j : Instr} {s : State} {rd re : Reg} {y : BitVec N} {x : BitVec M}
    {ov ov' : Bool} (hi : Writes i s rd y ov) (hj : ∀ t, Holds t rd y → Writes j t re x ov') :
    ∃ t u, exec i s = .next t ∧ exec j t = .next u ∧ Holds u re x := by
  obtain ⟨t, ht, hy, -, -⟩ := hi
  obtain ⟨u, hu, hx, -, -⟩ := hj t hy
  exact ⟨t, u, ht, hu, hx⟩

/-- Settles O51: complement and negation are their own inverses, and signed NEG sets OV exactly for the one nonzero pattern
that is its own negation (`neg_eq_self_and_ne_zero_iff`). -/
theorem signLaws : Obligations.SignLaws := by
  unfold Obligations.SignLaws
  intro N sg sg' rd re ra s x _ hx
  have hpos : 0 < N := hx.1 ▸ width_pos s.cfg
  have htwice := (writes_neg sg rd hx).exists_next_then fun _ => writes_neg sg' re
  have hback := (writes_not rd hx).exists_next_then fun _ => writes_not re
  rw [BitVec.neg_neg] at htwice
  rw [BitVec.not_not] at hback
  refine ⟨htwice, hback, ?_, ?_⟩
  · obtain ⟨t, ht, hnot, -, -⟩ := writes_not rd hx
    obtain ⟨u, hu, hneg, -, -⟩ := writes_neg sg rd hx
    obtain ⟨v, hv, hmag, -, -⟩ := writes_mag .s rd hx
    exact ⟨t, u, v, _, _, _, ht, hnot, hu, hneg, (bits_not_add_one .u x).symm, hv, hmag, bits_natAbs_signed x⟩
  · obtain ⟨t, ht, hneg, hframe, -⟩ := writes_neg .s rd hx
    have hov : t.ov = negOverflow .s x := congrArg State.ov hframe
    refine ⟨t, _, ht, hneg, ?_⟩
    rw [hov, negOverflow_signed, beq_iff_eq, neg_eq_self_and_ne_zero_iff hpos]

end Sys2Proof.Machine

/-! ## Shifts and rotations

SHL to RORI (R255 to R272). All sixteen commands have one body, `shiftBody`; they differ in where the distance comes from,
in the range check, and in the function of the operand and the distance. So what a command writes is an equation about that
function, and its faults are those of the body. -/

namespace Sys2Proof.Machine

/-! ### The shared functions at every distance -/

theorem smartLeftBy_eq_shiftLeft {N : Nat} (x : BitVec N) (k : Nat) : smartLeftBy x k = x <<< k := by
  rw [smartLeftBy]
  split
  next hclamp => exact (BitVec.shiftLeft_eq_zero hclamp).symm
  next => exact lsh_eq_shiftLeft x k

/-- From the width on, a right shift leaves the fill in every bit (R253). -/
theorem fill_eq_shiftRightBy {N k : Nat} (sg : Sign) (x : BitVec N) (hk : N ≤ k) : fill sg x = shiftRightBy sg x k := by
  refine BitVec.eq_of_getLsbD_eq fun i hi => ?_
  rw [getLsbD_shiftRightBy sg x k hi, if_neg (by omega), fill]
  split
  next hneg => rw [BitVec.getLsbD_allOnes, decide_eq_true hi, decide_eq_true hneg]
  next hneg => rw [decide_eq_false hneg]; exact BitVec.getLsbD_zero

theorem smartRightBy_eq_shiftRightBy {N : Nat} (sg : Sign) (x : BitVec N) (k : Nat) :
    smartRightBy sg x k = shiftRightBy sg x k := by
  rw [smartRightBy]
  split
  next hclamp => exact fill_eq_shiftRightBy sg x hclamp
  next => exact rsh_eq_shiftRightBy sg x k

theorem smartL_eq {N : Nat} (sg : Sign) (x : BitVec N) (d : Int) :
    smartL sg x d = if d < 0 then shiftRightBy sg x (-d).toNat else x <<< d.toNat := by
  rw [smartL, smartRightBy_eq_shiftRightBy, smartLeftBy_eq_shiftLeft]

theorem smartR_eq {N : Nat} (sg : Sign) (x : BitVec N) (d : Int) :
    smartR sg x d = if d < 0 then x <<< (-d).toNat else shiftRightBy sg x d.toNat := by
  rw [smartR, smartRightBy_eq_shiftRightBy, smartLeftBy_eq_shiftLeft]

theorem shiftRightBy_zero {N : Nat} (sg : Sign) (x : BitVec N) : shiftRightBy sg x 0 = x := by
  cases sg with
  | u => exact BitVec.ushiftRight_zero x
  | s => exact BitVec.sshiftRight_zero

/-- Shifting left by a distance is shifting right by its negation (R253, R272). -/
theorem smartR_neg {N : Nat} (sg : Sign) (x : BitVec N) (d : Int) : smartR sg x (-d) = smartL sg x d := by
  rw [smartR_eq, smartL_eq, Int.neg_neg]
  obtain hneg | rfl | hpos := lt_trichotomy d 0
  · rw [if_neg (by omega), if_pos hneg]
  · exact (shiftRightBy_zero sg x).trans (BitVec.shiftLeft_zero x).symm
  · rw [if_pos (by omega), if_neg (by omega)]

theorem rotr_eq_rotateRight {N k : Nat} (x : BitVec N) (hk : k < N) : rotr x k = x.rotateRight k := by
  obtain rfl | hpos := Nat.eq_zero_or_pos k
  · have hover : x <<< (N - 0) = 0#N := BitVec.shiftLeft_eq_zero (Nat.le_refl N)
    rw [rotr, Nat.sub_zero, Nat.mod_self, rotl, if_pos rfl, BitVec.rotateRight_def, Nat.zero_mod, hover,
      BitVec.ushiftRight_zero, BitVec.or_zero]
  · have hother : N - k < N := by omega
    rw [rotr, Nat.mod_eq_of_lt hother, rotl_eq_rotateLeft x hother, BitVec.rotateLeft_def, BitVec.rotateRight_def,
      Nat.mod_eq_of_lt hother, Nat.mod_eq_of_lt hk, Nat.sub_sub_self hk.le, BitVec.or_comm]

/-- A rotation to the right takes back the same rotation to the left (R272). -/
theorem rotateRight_rotateLeft {N : Nat} (x : BitVec N) (k : Nat) : (x.rotateLeft k).rotateRight k = x := by
  refine BitVec.eq_of_getElem_eq fun i hi => ?_
  have hmod := Nat.mod_lt k (show N > 0 by omega)
  rw [BitVec.getElem_rotateRight]
  split
  next hbelow =>
    rw [BitVec.getElem_rotateLeft, dif_neg (by omega)]
    exact getElem_congr_idx (by omega)
  next hwrapped =>
    rw [BitVec.getElem_rotateLeft, dif_pos (by omega)]
    exact getElem_congr_idx (by omega)

/-! ### Distances and range checks -/

theorem maskDist_immVal (N : Nat) (imm : Imm15) : maskDist N (immVal imm) = imm.toNat % N := by
  rw [maskDist, immVal, ← Int.natCast_emod, Int.toNat_natCast]

theorem immVal_toNat (imm : Imm15) : (immVal imm).toNat = imm.toNat := Int.toNat_natCast _

theorem immVal_nonneg (imm : Imm15) : 0 ≤ immVal imm := Int.natCast_nonneg _

theorem immVal_inRange_iff (imm : Imm15) (bound : Nat) :
    0 ≤ immVal imm ∧ immVal imm < (bound : Int) ↔ imm.toNat < bound := by
  rw [immVal]
  omega

theorem check_inRange {d : Int} {bound : Nat} (k : Cause) (h : 0 ≤ d ∧ d < (bound : Int)) :
    check (inRange d bound) k = .ok () := by
  rw [inRange, decide_eq_true h, check_true]

theorem check_not_inRange {d : Int} {bound : Nat} (k : Cause) (h : ¬(0 ≤ d ∧ d < (bound : Int))) :
    check (inRange d bound) k = .error k := by
  rw [inRange, decide_eq_false h, check_false]

theorem readDist_of_invalid {s : State} {r : Reg} (h : InvalidWord s r 0) : readDist s r = .error .uninit := by
  rw [readDist, readWord_of_invalid h, bind_error]

/-! ### What a command with a shift's body does -/

section
variable {i : Instr} {s : State} {rd ra : Reg} {dist : Except Cause Int} {guard : Int → Except Cause Unit} {d : Int}

theorem writes_of_shiftBody {N : Nat} {x y : BitVec N} {f : ∀ {M : Nat}, BitVec M → Int → BitVec M}
    (hexec : exec i s = command i s (shiftBody s rd ra dist guard f)) (hx : Holds s ra x) (hd : dist = .ok d)
    (hg : guard d = .ok ()) (hy : f x d = y) : Writes i s rd y s.ov := by
  obtain rfl : s.cfg.width = N := hx.1
  rw [shiftBody_ok hx hd hg, hy, command_ok] at hexec
  exact writes_of_exec rfl hexec

/-- The range check comes after both reads, and its cause is the fault's (R405). -/
theorem faults_of_shiftBody_guard {N : Nat} {x : BitVec N} {f : BitVec s.cfg.width → Int → BitVec s.cfg.width}
    {k : Cause} (hexec : exec i s = command i s (shiftBody s rd ra dist guard f)) (hx : Holds s ra x)
    (hd : dist = .ok d) (hg : guard d = .error k) : Faults i s k.code := by
  obtain rfl : s.cfg.width = N := hx.1
  refine faults_of_body_error hexec ?_
  rw [shiftBody, readV_of_holds hx, bind_ok, hd, bind_ok, hg, bind_error]

/-- The register form needs every word of its operand and word 0 of its distance (R76, R410). -/
theorem faults_of_invalid_distance {rb : Reg} {f : BitVec s.cfg.width → Int → BitVec s.cfg.width}
    (hexec : exec i s = command i s (shiftBody s rd ra (readDist s rb) guard f))
    (h : HasInvalid s ra ∨ InvalidWord s rb 0) : Faults i s 2 :=
  faults_of_body_error (k := .uninit) hexec
    (bind_bind_uninit (fun _ => readV_eq_error) (h.imp readV_of_invalid readDist_of_invalid))

end

/-! ### Smart shifts -/

section
variable {N : Nat} {s : State} {ra rb : Reg} {x : BitVec N} {w : Word}

theorem writes_shl (sg : Sign) (rd : Reg) (hx : Holds s ra x) (hw : HoldsWord s rb 0 w) :
    Writes (.shl sg rd ra rb) s rd (smartL sg x w.toInt) s.ov :=
  writes_of_shiftBody (f := smartL sg) rfl hx (readDist_of_holds hw) rfl rfl

theorem writes_shr (sg : Sign) (rd : Reg) (hx : Holds s ra x) (hw : HoldsWord s rb 0 w) :
    Writes (.shr sg rd ra rb) s rd (smartR sg x w.toInt) s.ov :=
  writes_of_shiftBody (f := smartR sg) rfl hx (readDist_of_holds hw) rfl rfl

theorem writes_shli (rd : Reg) (imm : Imm15) (hx : Holds s ra x) :
    Writes (.shli rd ra imm) s rd (x <<< imm.toNat) s.ov :=
  writes_of_shiftBody (f := smartL .u) rfl hx rfl rfl (by
    rw [smartL_eq, if_neg (immVal_nonneg imm).not_gt, immVal_toNat])

theorem writes_shri (sg : Sign) (rd : Reg) (imm : Imm15) (hx : Holds s ra x) :
    Writes (.shri sg rd ra imm) s rd (shiftRightBy sg x imm.toNat) s.ov :=
  writes_of_shiftBody (f := smartR sg) rfl hx rfl rfl (by
    rw [smartR_eq, if_neg (immVal_nonneg imm).not_gt, immVal_toNat])

end

/-- Settles O35: the clamped results of R253 are those of the pattern's own shifts at every distance (`smartL_eq`,
`smartR_eq`). -/
theorem smartShifts : Obligations.SmartShifts := by
  unfold Obligations.SmartShifts
  intro N sg rd ra rb imm s _
  refine ⟨decode_of_encode_eq (i := .shl sg rd ra rb) rfl rfl, decode_of_encode_eq (i := .shli rd ra imm) rfl rfl,
    decode_of_encode_eq (i := .shr sg rd ra rb) rfl rfl, decode_of_encode_eq (i := .shri sg rd ra imm) rfl rfl,
    fun x w hx hw => ?_, fun x hx => ⟨writes_shli rd imm hx, writes_shri sg rd imm hx⟩, fun h => ?_, fun h => ?_⟩
  · rw [← smartL_eq, ← smartR_eq]
    exact ⟨writes_shl sg rd hx hw, writes_shr sg rd hx hw⟩
  · exact ⟨faults_of_invalid_distance rfl h, faults_of_invalid_distance rfl h⟩
  · exact ⟨faults_of_read rfl (readV_of_invalid h), faults_of_read rfl (readV_of_invalid h)⟩

/-! ### Masking shifts -/

section
variable {N : Nat} {s : State} {ra : Reg} {x : BitVec N} {dist : Except Cause Int} {d : Int} {i : Instr} {rd : Reg}

/-- SHLM and SHLMI (R259, R260). -/
theorem writes_of_maskLeft
    (hexec : exec i s = command i s (shiftBody s rd ra dist noGuard fun x d => lsh x (maskDist s.cfg.width d)))
    (hx : Holds s ra x) (hd : dist = .ok d) : Writes i s rd (x <<< maskDist N d) s.ov :=
  writes_of_shiftBody (f := fun {M} x d => lsh x (maskDist M d)) hexec hx hd rfl (lsh_eq_shiftLeft x _)

/-- SHRM and SHRMI (R261, R262). -/
theorem writes_of_maskRight {sg : Sign}
    (hexec : exec i s = command i s (shiftBody s rd ra dist noGuard fun x d => rsh sg x (maskDist s.cfg.width d)))
    (hx : Holds s ra x) (hd : dist = .ok d) : Writes i s rd (shiftRightBy sg x (maskDist N d)) s.ov :=
  writes_of_shiftBody (f := fun {M} x d => rsh sg x (maskDist M d)) hexec hx hd rfl (rsh_eq_shiftRightBy sg x _)

theorem writes_shlmi (rd : Reg) (imm : Imm15) (hx : Holds s ra x) :
    Writes (.shlmi rd ra imm) s rd (x <<< (imm.toNat % N)) s.ov := by
  rw [← maskDist_immVal]
  exact writes_of_maskLeft rfl hx rfl

theorem writes_shrmi (sg : Sign) (rd : Reg) (imm : Imm15) (hx : Holds s ra x) :
    Writes (.shrmi sg rd ra imm) s rd (shiftRightBy sg x (imm.toNat % N)) s.ov := by
  rw [← maskDist_immVal]
  exact writes_of_maskRight rfl hx rfl

end

/-- Settles O36: `maskDist` is the non-negative residue, of an immediate the remainder. -/
theorem maskingShifts : Obligations.MaskingShifts := by
  unfold Obligations.MaskingShifts
  intro N sg rd ra rb imm s _
  refine ⟨decode_of_encode_eq (i := .shlm rd ra rb) rfl rfl, decode_of_encode_eq (i := .shlmi rd ra imm) rfl rfl,
    decode_of_encode_eq (i := .shrm sg rd ra rb) rfl rfl, decode_of_encode_eq (i := .shrmi sg rd ra imm) rfl rfl,
    fun x w hx hw => ?_, fun x hx => ⟨writes_shlmi rd imm hx, writes_shrmi sg rd imm hx⟩, fun h => ?_, fun h => ?_⟩
  · exact ⟨writes_of_maskLeft rfl hx (readDist_of_holds hw), writes_of_maskRight rfl hx (readDist_of_holds hw)⟩
  · exact ⟨faults_of_invalid_distance rfl h, faults_of_invalid_distance rfl h⟩
  · exact ⟨faults_of_read rfl (readV_of_invalid h), faults_of_read rfl (readV_of_invalid h)⟩

/-! ### Word shifts -/

section
variable {N : Nat} {s : State} {ra : Reg} {x : BitVec N} {dist : Except Cause Int} {d : Int} {i : Instr} {rd : Reg}

/-- SHLW and SHLWI (R263, R264). -/
theorem writes_of_wordLeft
    (hexec : exec i s = command i s (shiftBody s rd ra dist (wordGuard s) fun x c => lsh x (64 * c.toNat)))
    (hx : Holds s ra x) (hd : dist = .ok d) (hr : 0 ≤ d ∧ d < (s.cfg.words : Int)) :
    Writes i s rd (x <<< (64 * d.toNat)) s.ov :=
  writes_of_shiftBody (f := fun x c => lsh x (64 * c.toNat)) hexec hx hd (check_inRange _ hr) (lsh_eq_shiftLeft x _)

/-- SHRW and SHRWI (R265, R266). -/
theorem writes_of_wordRight {sg : Sign}
    (hexec : exec i s = command i s (shiftBody s rd ra dist (wordGuard s) fun x c => rsh sg x (64 * c.toNat)))
    (hx : Holds s ra x) (hd : dist = .ok d) (hr : 0 ≤ d ∧ d < (s.cfg.words : Int)) :
    Writes i s rd (shiftRightBy sg x (64 * d.toNat)) s.ov :=
  writes_of_shiftBody (f := fun x c => rsh sg x (64 * c.toNat)) hexec hx hd (check_inRange _ hr)
    (rsh_eq_shiftRightBy sg x _)

/-- The count of a word shift that is not in [0, n) (R414). -/
theorem faults_wordShiftRange {f : BitVec s.cfg.width → Int → BitVec s.cfg.width}
    (hexec : exec i s = command i s (shiftBody s rd ra dist (wordGuard s) f)) (hx : Holds s ra x) (hd : dist = .ok d)
    (hr : ¬(0 ≤ d ∧ d < (s.cfg.words : Int))) : Faults i s 5 :=
  faults_of_shiftBody_guard hexec hx hd (check_not_inRange .wordShiftRange hr)

theorem writes_shlwi (rd : Reg) {imm : Imm15} (hx : Holds s ra x) (h : imm.toNat < s.cfg.words) :
    Writes (.shlwi rd ra imm) s rd (x <<< (64 * imm.toNat)) s.ov := by
  rw [← immVal_toNat imm]
  exact writes_of_wordLeft rfl hx rfl ((immVal_inRange_iff imm _).2 h)

theorem writes_shrwi (sg : Sign) (rd : Reg) {imm : Imm15} (hx : Holds s ra x) (h : imm.toNat < s.cfg.words) :
    Writes (.shrwi sg rd ra imm) s rd (shiftRightBy sg x (64 * imm.toNat)) s.ov := by
  rw [← immVal_toNat imm]
  exact writes_of_wordRight rfl hx rfl ((immVal_inRange_iff imm _).2 h)

end

/-- Settles O37: the count is in range or the check fails, in the register and in the immediate form. -/
theorem wordShifts : Obligations.WordShifts := by
  unfold Obligations.WordShifts
  intro N sg rd ra rb imm s _
  refine ⟨decode_of_encode_eq (i := .shlw rd ra rb) rfl rfl, decode_of_encode_eq (i := .shlwi rd ra imm) rfl rfl,
    decode_of_encode_eq (i := .shrw sg rd ra rb) rfl rfl, decode_of_encode_eq (i := .shrwi sg rd ra imm) rfl rfl,
    fun x w hx hw => ?_, fun x hx => ?_, fun h => ?_, fun h => ?_⟩
  · have hd := readDist_of_holds hw
    split
    next hr => exact ⟨writes_of_wordLeft rfl hx hd hr, writes_of_wordRight rfl hx hd hr⟩
    next hr => exact ⟨faults_wordShiftRange rfl hx hd hr, faults_wordShiftRange rfl hx hd hr⟩
  · split
    next hr => exact ⟨writes_shlwi rd hx hr, writes_shrwi sg rd hx hr⟩
    next hr =>
      rw [← immVal_inRange_iff] at hr
      exact ⟨faults_wordShiftRange rfl hx rfl hr, faults_wordShiftRange rfl hx rfl hr⟩
  · exact ⟨faults_of_invalid_distance rfl h, faults_of_invalid_distance rfl h⟩
  · exact ⟨faults_of_read rfl (readV_of_invalid h), faults_of_read rfl (readV_of_invalid h)⟩

/-! ### Rotations -/

section
variable {N : Nat} {s : State} {ra : Reg} {x : BitVec N} {dist : Except Cause Int} {d : Int} {i : Instr} {rd : Reg}

theorem rotGuard_of_inRange (hx : Holds s ra x) (hr : 0 ≤ d ∧ d < (N : Int)) : rotGuard s d = .ok () :=
  check_inRange _ (hx.1 ▸ hr)

/-- ROL and ROLI (R267, R268). -/
theorem writes_of_rotateLeft
    (hexec : exec i s = command i s (shiftBody s rd ra dist (rotGuard s) fun x d => rotl x d.toNat))
    (hx : Holds s ra x) (hd : dist = .ok d) (hr : 0 ≤ d ∧ d < (N : Int)) :
    Writes i s rd (x.rotateLeft d.toNat) s.ov :=
  writes_of_shiftBody (f := fun x d => rotl x d.toNat) hexec hx hd (rotGuard_of_inRange hx hr)
    (rotl_eq_rotateLeft x (by omega))

/-- ROR and RORI (R269, R270). -/
theorem writes_of_rotateRight
    (hexec : exec i s = command i s (shiftBody s rd ra dist (rotGuard s) fun x d => rotr x d.toNat))
    (hx : Holds s ra x) (hd : dist = .ok d) (hr : 0 ≤ d ∧ d < (N : Int)) :
    Writes i s rd (x.rotateRight d.toNat) s.ov :=
  writes_of_shiftBody (f := fun x d => rotr x d.toNat) hexec hx hd (rotGuard_of_inRange hx hr)
    (rotr_eq_rotateRight x (by omega))

/-- The distance of a rotation that is not in [0, N) (R415). -/
theorem faults_rotRange {f : BitVec s.cfg.width → Int → BitVec s.cfg.width}
    (hexec : exec i s = command i s (shiftBody s rd ra dist (rotGuard s) f)) (hx : Holds s ra x) (hd : dist = .ok d)
    (hr : ¬(0 ≤ d ∧ d < (N : Int))) : Faults i s 6 :=
  faults_of_shiftBody_guard hexec hx hd (check_not_inRange .rotRange (hx.1 ▸ hr))

theorem writes_roli (rd : Reg) {imm : Imm15} (hx : Holds s ra x) (h : imm.toNat < N) :
    Writes (.roli rd ra imm) s rd (x.rotateLeft imm.toNat) s.ov := by
  rw [← immVal_toNat imm]
  exact writes_of_rotateLeft rfl hx rfl ((immVal_inRange_iff imm N).2 h)

theorem writes_rori (rd : Reg) {imm : Imm15} (hx : Holds s ra x) (h : imm.toNat < N) :
    Writes (.rori rd ra imm) s rd (x.rotateRight imm.toNat) s.ov := by
  rw [← immVal_toNat imm]
  exact writes_of_rotateRight rfl hx rfl ((immVal_inRange_iff imm N).2 h)

end

/-- Settles O38: the distance is in range or the check fails, in the register and in the immediate form. -/
theorem rotations : Obligations.Rotations := by
  unfold Obligations.Rotations
  intro N rd ra rb imm s _
  refine ⟨decode_of_encode_eq (i := .rol rd ra rb) rfl rfl, decode_of_encode_eq (i := .roli rd ra imm) rfl rfl,
    decode_of_encode_eq (i := .ror rd ra rb) rfl rfl, decode_of_encode_eq (i := .rori rd ra imm) rfl rfl,
    fun x w hx hw => ?_, fun x hx => ?_, fun h => ?_, fun h => ?_⟩
  · have hd := readDist_of_holds hw
    split
    next hr => exact ⟨writes_of_rotateLeft rfl hx hd hr, writes_of_rotateRight rfl hx hd hr⟩
    next hr => exact ⟨faults_rotRange rfl hx hd hr, faults_rotRange rfl hx hd hr⟩
  · split
    next hr => exact ⟨writes_roli rd hx hr, writes_rori rd hx hr⟩
    next hr =>
      rw [← immVal_inRange_iff] at hr
      exact ⟨faults_rotRange rfl hx rfl hr, faults_rotRange rfl hx rfl hr⟩
  · exact ⟨faults_of_invalid_distance rfl h, faults_of_invalid_distance rfl h⟩
  · exact ⟨faults_of_read rfl (readV_of_invalid h), faults_of_read rfl (readV_of_invalid h)⟩

/-! ### The laws of shifts and rotations -/

/-- Settles O52: the commands that a law compares write the same shift of the operand, SHL and SHR because a distance of
either sign shifts one way as its negation shifts the other (`smartR_neg`). -/
theorem shiftLaws : Obligations.ShiftLaws := by
  unfold Obligations.ShiftLaws
  intro N sg rd re ra rb rc imm imm' s x _ hx
  refine ⟨fun h => ?_, fun h => ?_, fun h => ?_, fun h h' => ?_, fun w w' hw hw' hneg => ?_⟩
  · obtain ⟨t, ht, hleft, -, -⟩ := writes_roli rd hx h
    obtain ⟨u, hu, hback, -, -⟩ := writes_rori re hleft h
    rw [rotateRight_rotateLeft] at hback
    exact ⟨t, u, ht, hu, hback⟩
  · have hmod : imm.toNat % N = 0 := by obtain h | h := h <;> simp [h]
    have hmask := writes_shlmi rd imm hx
    rwa [hmod, BitVec.shiftLeft_zero] at hmask
  · have hleft := writes_shlmi rd imm hx
    have hright := writes_shrmi sg rd imm hx
    rw [Nat.mod_eq_of_lt h] at hleft hright
    exact ⟨_, _, writes_shli rd imm hx, hleft, writes_shri sg rd imm hx, hright⟩
  · have hleft := writes_shli rd imm' hx
    have hright := writes_shri sg rd imm' hx
    rw [h'] at hleft hright
    exact ⟨_, _, writes_shlwi rd hx h, hleft, writes_shrwi sg rd hx h, hright⟩
  · have hright := writes_shr sg rd hx hw'
    rw [hneg, smartR_neg] at hright
    exact ⟨_, writes_shl sg rd hx hw, hright⟩

end Sys2Proof.Machine

/-! ## Bit accesses

BGET to BTGLI (R300 to R309). All eight commands have one body, `bitBody`; they differ in where the index comes from and in
the function of the operand and the translated index. So what a command writes is an equation about that function's bits,
and the register and immediate forms share each lemma. -/

namespace Sys2Proof.Machine

/-! ### One bit of a pattern -/

/-- The translator finds the bit of its index (R300). -/
theorem bitAt_bitAddr {N : Nat} (x : BitVec N) (i : Nat) : bitAt x (bitAddr i) = x.getLsbD i := by
  rw [bitAt, wordAt, bitAddr, BitVec.getLsbD_extractLsb', decide_eq_true (Nat.mod_lt i (by decide)), Bool.true_and,
    Nat.div_add_mod]

theorem getBit_bitAddr {N : Nat} (x : BitVec N) (i : Nat) :
    getBit x (bitAddr i) = BitVec.ofNat N (x.getLsbD i).toNat := by
  rw [getBit, bitAt_bitAddr]
  cases x.getLsbD i <;> rfl

theorem getLsbD_putBit (w : Word) {bo i : Nat} (b : Bool) (hi : i < 64) :
    (putBit w bo b).getLsbD i = if bo = i then b else w.getLsbD i := by
  obtain rfl | hne := eq_or_ne bo i
  · cases b <;> simp [putBit, hi]
  · cases b <;> simp [putBit, hi, hne, hne.symm]

/-- Writing one bit of a pattern modifies one of its words (R303). -/
theorem toWords_setBitAt {n : Nat} (x : BitVec (64 * n)) (a : Nat × Nat) (b : Bool) :
    toWords n (setBitAt x a b).toNat = (toWords n x.toNat).modify a.1 (putBit · a.2 b) := by
  rw [setBitAt, Nat.mul_div_cancel_left n (by decide), ← bits_natCast, toWords_bits_wordsVal]
  rw [List.length_modify, toWords_length]

theorem wordAt_setBitAt {n k : Nat} (x : BitVec (64 * n)) (a : Nat × Nat) (b : Bool) (hk : k < n) :
    wordAt (setBitAt x a b) k = if a.1 = k then putBit (wordAt x k) a.2 b else wordAt x k := by
  have hwords := congrArg (·[k]?) (toWords_setBitAt x a b)
  simp only [List.getElem?_modify, toWords_getElem? _ _ _ hk, ← extractWord_eq] at hwords
  exact Option.some.inj hwords

/-- Two indices have one address exactly where they are equal (R300). -/
theorem eq_iff_div_mod_eq {i j : Nat} : i = j ↔ j / 64 = i / 64 ∧ j % 64 = i % 64 := by omega

/-- Writing the bit of an index changes that bit alone (R303). -/
theorem getLsbD_setBitAt {N i : Nat} (h64 : 64 ∣ N) (x : BitVec N) (hi : i < N) (b : Bool) (j : Nat) :
    (setBitAt x (bitAddr i) b).getLsbD j = if j = i then b else x.getLsbD j := by
  obtain ⟨n, rfl⟩ := h64
  obtain hj | hj := Nat.lt_or_ge j (64 * n)
  · have hmod : j % 64 < 64 := Nat.mod_lt j (by decide)
    rw [← bitAt_bitAddr, ← bitAt_bitAddr x, bitAt, bitAt, bitAddr, bitAddr,
      wordAt_setBitAt x _ b (Nat.div_lt_of_lt_mul hj)]
    simp only [eq_iff_div_mod_eq (i := j)]
    split
    next hword => simp only [getLsbD_putBit _ b hmod, hword, true_and]
    next hword => simp only [hword, false_and, if_false]
  · rw [BitVec.getLsbD_of_ge _ _ hj, BitVec.getLsbD_of_ge _ _ hj, if_neg (by omega)]

theorem getLsbD_setBit {N i : Nat} (h64 : 64 ∣ N) (x : BitVec N) (hi : i < N) (j : Nat) :
    (setBit x (bitAddr i)).getLsbD j = if j = i then true else x.getLsbD j :=
  getLsbD_setBitAt h64 x hi true j

theorem getLsbD_clearBit {N i : Nat} (h64 : 64 ∣ N) (x : BitVec N) (hi : i < N) (j : Nat) :
    (clearBit x (bitAddr i)).getLsbD j = if j = i then false else x.getLsbD j :=
  getLsbD_setBitAt h64 x hi false j

theorem getLsbD_toggleBit {N i : Nat} (h64 : 64 ∣ N) (x : BitVec N) (hi : i < N) (j : Nat) :
    (toggleBit x (bitAddr i)).getLsbD j = if j = i then !x.getLsbD j else x.getLsbD j := by
  rw [toggleBit, bitAt_bitAddr, getLsbD_setBitAt h64 x hi]
  split
  next hj => rw [hj]
  next => rfl

/-- Inverting a bit twice gives back the pattern (R309). -/
theorem toggleBit_toggleBit {N i : Nat} (h64 : 64 ∣ N) (x : BitVec N) (hi : i < N) :
    toggleBit (toggleBit x (bitAddr i)) (bitAddr i) = x := by
  refine BitVec.eq_of_getLsbD_eq fun j _ => ?_
  rw [getLsbD_toggleBit h64 _ hi, getLsbD_toggleBit h64 x hi]
  split
  next => exact Bool.not_not _
  next => rfl

/-! ### What a command with the body of a bit access does -/

/-- A register's width is a whole number of words (R6), so every index has a word. -/
theorem dvd_of_holds {N : Nat} {s : State} {r : Reg} {x : BitVec N} (h : Holds s r x) : 64 ∣ N :=
  ⟨s.cfg.words, h.1.symm⟩

section
variable {N : Nat} {i : Instr} {s : State} {rd ra : Reg} {x : BitVec N} {index : Except Cause Int} {d : Int}

theorem exec_of_bitBody {f : ∀ {M : Nat}, BitVec M → Nat × Nat → BitVec M}
    (hexec : exec i s = command i s (bitBody s rd ra index f)) (hx : Holds s ra x) (hd : index = .ok d)
    (hr : 0 ≤ d ∧ d < (N : Int)) : exec i s = .next (s.writeV rd (f x (bitAddr d.toNat))) := by
  obtain rfl : s.cfg.width = N := hx.1
  rw [hexec, bitBody_ok hx hd (decide_eq_true hr), command_ok]

theorem writes_of_bitBody {f : ∀ {M : Nat}, BitVec M → Nat × Nat → BitVec M}
    (hexec : exec i s = command i s (bitBody s rd ra index f)) (hx : Holds s ra x) (hd : index = .ok d)
    (hr : 0 ≤ d ∧ d < (N : Int)) : Writes i s rd (f x (bitAddr d.toNat)) s.ov :=
  writes_of_exec hx.1 (exec_of_bitBody (f := f) hexec hx hd hr)

/-- An index that is not in [0, N) (R300, R416). -/
theorem faults_bitIndex {f : BitVec s.cfg.width → Nat × Nat → BitVec s.cfg.width}
    (hexec : exec i s = command i s (bitBody s rd ra index f)) (hx : Holds s ra x) (hd : index = .ok d)
    (hr : ¬(0 ≤ d ∧ d < (N : Int))) : Faults i s 7 := by
  obtain rfl : s.cfg.width = N := hx.1
  refine faults_of_body_error (k := .bitIndex) hexec ?_
  rw [bitBody, readV_of_holds hx, bind_ok, hd, bind_ok, check_not_inRange _ hr, bind_error]

/-- The register form needs every word of its operand and word 0 of its index (R76, R410). -/
theorem faults_of_invalid_index {rb : Reg} {f : BitVec s.cfg.width → Nat × Nat → BitVec s.cfg.width}
    (hexec : exec i s = command i s (bitBody s rd ra (readDist s rb) f)) (h : HasInvalid s ra ∨ InvalidWord s rb 0) :
    Faults i s 2 :=
  faults_of_body_error (k := .uninit) hexec
    (bind_bind_uninit (fun _ => readV_eq_error) (h.imp readV_of_invalid readDist_of_invalid))

end

/-! ### BGET and BGETI -/

section
variable {N : Nat} {s : State} {ra rb : Reg} {x : BitVec N} {w : Word} {imm : Imm15}

theorem writes_bget (rd : Reg) (hx : Holds s ra x) (hw : HoldsWord s rb 0 w) (hr : 0 ≤ w.toInt ∧ w.toInt < (N : Int)) :
    Writes (.bget rd ra rb) s rd (BitVec.ofNat N (x.getLsbD w.toInt.toNat).toNat) s.ov := by
  rw [← getBit_bitAddr]
  exact writes_of_bitBody (f := getBit) rfl hx (readDist_of_holds hw) hr

theorem writes_bgeti (rd : Reg) (hx : Holds s ra x) (h : imm.toNat < N) :
    Writes (.bgeti rd ra imm) s rd (BitVec.ofNat N (x.getLsbD imm.toNat).toNat) s.ov := by
  rw [← getBit_bitAddr, ← immVal_toNat imm]
  exact writes_of_bitBody (f := getBit) rfl hx rfl ((immVal_inRange_iff imm N).2 h)

end

/-- Settles O39: the index is in range or the check fails, in the register and in the immediate form. -/
theorem bitReads : Obligations.BitReads := by
  unfold Obligations.BitReads
  intro N rd ra rb imm s _
  refine ⟨decode_of_encode_eq (i := .bget rd ra rb) rfl rfl, decode_of_encode_eq (i := .bgeti rd ra imm) rfl rfl,
    fun x w hx hw => ?_, fun x hx => ?_, fun h => ?_, fun h => ?_⟩
  · split
    next hr => exact writes_bget rd hx hw hr
    next hr => exact faults_bitIndex rfl hx (readDist_of_holds hw) hr
  · split
    next hr => exact writes_bgeti rd hx hr
    next hr => exact faults_bitIndex rfl hx rfl (mt (immVal_inRange_iff imm N).1 hr)
  · exact faults_of_invalid_index rfl h
  · exact faults_of_read rfl (readV_of_invalid h)

/-! ### BSET, BCLR, BTGL and their immediate forms -/

section
variable {N : Nat} {s : State} {ra : Reg} {x : BitVec N} {imm : Imm15}

theorem writes_bseti (rd : Reg) (hx : Holds s ra x) (h : imm.toNat < N) :
    Writes (.bseti rd ra imm) s rd (setBit x (bitAddr imm.toNat)) s.ov := by
  rw [← immVal_toNat imm]
  exact writes_of_bitBody (f := setBit) rfl hx rfl ((immVal_inRange_iff imm N).2 h)

theorem writes_bclri (rd : Reg) (hx : Holds s ra x) (h : imm.toNat < N) :
    Writes (.bclri rd ra imm) s rd (clearBit x (bitAddr imm.toNat)) s.ov := by
  rw [← immVal_toNat imm]
  exact writes_of_bitBody (f := clearBit) rfl hx rfl ((immVal_inRange_iff imm N).2 h)

theorem writes_btgli (rd : Reg) (hx : Holds s ra x) (h : imm.toNat < N) :
    Writes (.btgli rd ra imm) s rd (toggleBit x (bitAddr imm.toNat)) s.ov := by
  rw [← immVal_toNat imm]
  exact writes_of_bitBody (f := toggleBit) rfl hx rfl ((immVal_inRange_iff imm N).2 h)

end

/-- Settles O40: each result differs from the operand in the indexed bit alone (`getLsbD_setBitAt`), and the index is in
range or the check fails, in the register and in the immediate form. -/
theorem bitWrites : Obligations.BitWrites := by
  unfold Obligations.BitWrites
  intro N rd ra rb imm s _
  refine ⟨decode_of_encode_eq (i := .bset rd ra rb) rfl rfl, decode_of_encode_eq (i := .bseti rd ra imm) rfl rfl,
    decode_of_encode_eq (i := .bclr rd ra rb) rfl rfl, decode_of_encode_eq (i := .bclri rd ra imm) rfl rfl,
    decode_of_encode_eq (i := .btgl rd ra rb) rfl rfl, decode_of_encode_eq (i := .btgli rd ra imm) rfl rfl,
    fun x w hx hw => ?_, fun x hx => ?_, fun h => ?_, fun h => ?_⟩
  · have hd := readDist_of_holds hw
    have h64 := dvd_of_holds hx
    split
    next hr =>
      have hi : w.toInt.toNat < N := by omega
      exact ⟨_, _, _, writes_of_bitBody (f := setBit) rfl hx hd hr, writes_of_bitBody (f := clearBit) rfl hx hd hr,
        writes_of_bitBody (f := toggleBit) rfl hx hd hr, fun j _ =>
        ⟨getLsbD_setBit h64 x hi j, getLsbD_clearBit h64 x hi j, getLsbD_toggleBit h64 x hi j⟩⟩
    next hr => exact ⟨faults_bitIndex rfl hx hd hr, faults_bitIndex rfl hx hd hr, faults_bitIndex rfl hx hd hr⟩
  · have h64 := dvd_of_holds hx
    split
    next hi =>
      exact ⟨_, _, _, writes_bseti rd hx hi, writes_bclri rd hx hi, writes_btgli rd hx hi, fun j _ =>
        ⟨getLsbD_setBit h64 x hi j, getLsbD_clearBit h64 x hi j, getLsbD_toggleBit h64 x hi j⟩⟩
    next hi =>
      have hr := mt (immVal_inRange_iff imm N).1 hi
      exact ⟨faults_bitIndex rfl hx rfl hr, faults_bitIndex rfl hx rfl hr, faults_bitIndex rfl hx rfl hr⟩
  · exact ⟨faults_of_invalid_index rfl h, faults_of_invalid_index rfl h, faults_of_invalid_index rfl h⟩
  · have hread := readV_of_invalid (N := s.cfg.width) h
    exact ⟨faults_of_read rfl hread, faults_of_read rfl hread, faults_of_read rfl hread⟩

/-! ### The laws of the bit accesses -/

/-- The register and the immediate form of a bit access at the same index (R309). -/
theorem exec_register_eq_immediate {N : Nat} {i j : Instr} {s : State} {rd ra rb : Reg} {imm : Imm15} {x : BitVec N}
    {w : Word} {f : ∀ {M : Nat}, BitVec M → Nat × Nat → BitVec M}
    (hi : exec i s = command i s (bitBody s rd ra (readDist s rb) f))
    (hj : exec j s = command j s (bitBody s rd ra (.ok (immVal imm)) f)) (hx : Holds s ra x) (h : imm.toNat < N)
    (hw : HoldsWord s rb 0 w) (heq : w.toInt = (imm.toNat : Int)) : exec i s = exec j s := by
  have hd : readDist s rb = .ok (immVal imm) := by rw [readDist_of_holds hw, heq, immVal]
  have hr := (immVal_inRange_iff imm N).2 h
  rw [exec_of_bitBody (f := f) hi hx hd hr, exec_of_bitBody (f := f) hj hx rfl hr]

/-- A command that writes `y`, and then one that makes `x` out of it and keeps OV. -/
theorem Writes.exists_next_then_keepOV {N M : Nat} {i j : Instr} {s : State} {rd re : Reg} {y : BitVec N} {x : BitVec M}
    {ov : Bool} (hi : Writes i s rd y ov) (hj : ∀ t, Holds t rd y → Writes j t re x t.ov) :
    ∃ t u, exec i s = .next t ∧ exec j t = .next u ∧ Holds u re x := by
  obtain ⟨t, ht, hy, -, -⟩ := hi
  obtain ⟨u, hu, hx, -, -⟩ := hj t hy
  exact ⟨t, u, ht, hu, hx⟩

/-- Settles O53: each law is the law of the patterns that the two commands write, which all follow from
`getLsbD_setBitAt`. -/
theorem bitLaws : Obligations.BitLaws := by
  unfold Obligations.BitLaws
  intro N rd re ra rb imm s x _ hx h
  have h64 := dvd_of_holds hx
  have hset := (writes_bseti rd hx h).exists_next_then_keepOV fun _ hy => writes_bgeti re hy h
  have hclear := (writes_bclri rd hx h).exists_next_then_keepOV fun _ hy => writes_bgeti re hy h
  have htwice := (writes_btgli rd hx h).exists_next_then_keepOV fun _ hy => writes_btgli re hy h
  rw [getLsbD_setBit h64 x h, if_pos rfl] at hset
  rw [getLsbD_clearBit h64 x h, if_pos rfl] at hclear
  rw [toggleBit_toggleBit h64 x h] at htwice
  refine ⟨?_, hset, hclear, htwice, ?_, fun w hw heq => ?_⟩
  · rw [← Nat.toNat_testBit]
    exact writes_bgeti rd hx h
  · refine ⟨_, _, _, writes_bseti rd hx h, writes_bclri rd hx h, writes_btgli rd hx h, fun j hj => ?_⟩
    rw [getLsbD_setBit h64 x h, getLsbD_clearBit h64 x h, getLsbD_toggleBit h64 x h]
    simp only [if_neg hj, and_self]
  · exact ⟨exec_register_eq_immediate (f := getBit) rfl rfl hx h hw heq,
      exec_register_eq_immediate (f := setBit) rfl rfl hx h hw heq,
      exec_register_eq_immediate (f := clearBit) rfl rfl hx h hw heq,
      exec_register_eq_immediate (f := toggleBit) rfl rfl hx h hw heq⟩

end Sys2Proof.Machine

/-! ## Word access

ENDIAN cannot be observed (R322), and the word accesses WRW and RDW (R324 to R327). -/

namespace Sys2Proof.Machine

/-! ### Another ENDIAN -/

/-- No host event reads ENDIAN (R322). -/
theorem hostEvent_onPlatform (ev : HostEvent) (s : State) (e : Endian) :
    hostEvent ev (s.onPlatform e) = mapNext (·.onPlatform e) (hostEvent ev s) :=
  hostEvent_mapOuter (g := fun _ => e) (h := id) ev s

/-- A run at another ENDIAN ends as the run does, refusals included, with that ENDIAN (R322). -/
theorem runHost_onPlatform (s : State) (es : List HostEvent) (e : Endian) :
    runHost (s.onPlatform e) es = mapNext (·.onPlatform e) (runHost s es) := by
  induction es generalizing s with
  | nil => rfl
  | cons ev es ih =>
    calc runHost (s.onPlatform e) (ev :: es)
        = andThen (mapNext (·.onPlatform e) (hostEvent ev s)) (runHost · es) := by
          rw [runHost_cons, hostEvent_onPlatform]
      _ = andThen (hostEvent ev s) fun t => mapNext (·.onPlatform e) (runHost t es) := by
          simp only [andThen_mapNext, ih]
      _ = mapNext (·.onPlatform e) (runHost s (ev :: es)) := by
          rw [runHost_cons, mapNext, andThen_assoc]
          rfl

/-! ### The storage of a value -/

/-- The word slot in which the storage of a value holds logical word k (R321). -/
def wordSlot (c : Config) (k : Nat) : Nat :=
  match c.endian with
  | .little => k
  | .big => c.words - 1 - k

theorem physicalOffset_eq_wordSlot {c : Config} {k : Nat} (hk : k < c.words) :
    physicalOffset c k = 8 * (wordSlot c k : Int) := by
  unfold physicalOffset wordSlot
  cases c.endian with
  | little => rfl
  | big => simp only; omega

theorem wordSlot_lt {c : Config} {k : Nat} (hk : k < c.words) : wordSlot c k < c.words := by
  unfold wordSlot
  cases c.endian with
  | little => exact hk
  | big => simp only; omega

/-- The slots are the words in order, or in reverse order; either order undoes itself. -/
theorem wordSlot_wordSlot {c : Config} {k : Nat} (hk : k < c.words) : wordSlot c (wordSlot c k) = k := by
  unfold wordSlot
  cases c.endian with
  | little => rfl
  | big => simp only; omega

theorem physicalOffset_injOn {c : Config} {j k : Nat} (hj : j < c.words) (hk : k < c.words)
    (h : physicalOffset c j = physicalOffset c k) : j = k := by
  rw [physicalOffset_eq_wordSlot hj, physicalOffset_eq_wordSlot hk] at h
  have hslot : wordSlot c j = wordSlot c k := by omega
  rw [← wordSlot_wordSlot hj, hslot, wordSlot_wordSlot hk]

/-- Settles O18: by induction a run commutes with a change of ENDIAN (`runHost_onPlatform`); and the word that a slot
holds is found by `wordSlot` itself. -/
theorem endianIsUnobservable : Obligations.EndianIsUnobservable := by
  unfold Obligations.EndianIsUnobservable
  refine ⟨fun s t es e h => ?_, fun s es e r h => ?_, fun c => ⟨fun j k => physicalOffset_injOn, fun k hk => ?_,
    fun m hm => ?_⟩⟩
  · rw [runHost_onPlatform, h]
    rfl
  · rw [runHost_onPlatform, h]
    rfl
  · exact ⟨wordSlot c k, wordSlot_lt hk, physicalOffset_eq_wordSlot hk⟩
  · refine ⟨wordSlot c m, wordSlot_lt hm, ?_⟩
    rw [physicalOffset_eq_wordSlot (wordSlot_lt hm), wordSlot_wordSlot hm]

/-! ### What WRW and RDW do -/

theorem writeWord_getElem?_ne (s : State) (r : Reg) {j k : Nat} (w : Word) (h : j ≠ k) :
    ((s.writeWord r k w).reg r)[j]? = (s.reg r)[j]? := by
  rw [writeWord_reg_same, List.getElem?_set_ne h.symm]

section
variable {s : State} {imm : Imm15} {w : Word}

theorem wordIndexGuard_of_lt (h : imm.toNat < s.cfg.words) : wordIndexGuard s imm = .ok () :=
  check_eq_ok_iff.2 (decide_eq_true h)

theorem wordIndexGuard_of_ge (h : s.cfg.words ≤ imm.toNat) : wordIndexGuard s imm = .error .wordIndex :=
  check_eq_error_iff.2 ⟨decide_eq_false (Nat.not_lt.2 h), rfl⟩

theorem exec_wrw (rd : Reg) (hdata : s.data = some w) (h : imm.toNat < s.cfg.words) :
    exec (.wrw rd imm) s = .next (s.writeWord rd imm.toNat w) := by
  simp [exec, execWrw, wordIndexGuard_of_lt h, readData, hdata]

theorem exec_rdw {ra : Reg} (hw : HoldsWord s ra imm.toNat w) (h : imm.toNat < s.cfg.words) :
    exec (.rdw ra imm) s = .next (s.setData w) := by
  simp [exec, execRdw, wordIndexGuard_of_lt h, readWord_of_holds hw]

/-- WRW and RDW check their index before they read anything (R405, R413). -/
theorem faults_wordIndex {i : Instr} {f : Unit → Except Cause State}
    (hexec : exec i s = command i s (wordIndexGuard s imm >>= f)) (h : s.cfg.words ≤ imm.toNat) : Faults i s 4 :=
  faults_of_body_error (k := .wordIndex) hexec (by rw [wordIndexGuard_of_ge h, bind_error])

/-- An index in range, then a read of something that is not valid. -/
theorem faults_uninit_of_wordIndex {i : Instr} {x : Except Cause Word} {f : Word → Except Cause State}
    (hexec : exec i s = command i s (wordIndexGuard s imm >>= fun _ => x >>= f)) (h : imm.toNat < s.cfg.words)
    (hx : x = .error .uninit) : Faults i s 2 :=
  faults_of_body_error (k := .uninit) hexec (by rw [wordIndexGuard_of_lt h, bind_ok, hx, bind_error])

end

end Sys2Proof.Machine

/-! ### WRW and RDW

The two theorems stand outside `Sys2Proof.Machine`, where `readWord` is the model's function. -/

namespace Sys2Proof

section
open Machine

/-- Settles O41: the state is `s.writeWord`, and the two faults are the two parts of the body (R324). -/
protected theorem writeWord : Obligations.WriteWord := by
  unfold Obligations.WriteWord
  intro rd imm s _ hwf
  refine ⟨decode_of_encode_eq (i := .wrw rd imm) rfl rfl, fun w hdata h => ?_, faults_wordIndex rfl,
    fun hdata h => faults_uninit_of_wordIndex rfl h (readData_of_invalid hdata)⟩
  exact ⟨_, exec_wrw rd hdata h, writeWord_holdsWord hwf rd w h, fun _ => writeWord_getElem?_ne s rd w,
    fun _ => writeWord_reg_ne s _ w, rfl⟩

/-- Settles O42: the state is `s.setData`, and the two faults are the two parts of the body (R325). -/
protected theorem readWord : Obligations.ReadWord := by
  unfold Obligations.ReadWord
  intro ra imm s _
  exact ⟨decode_of_encode_eq (i := .rdw ra imm) rfl rfl, fun w => exec_rdw, faults_wordIndex rfl,
    fun hw h => faults_uninit_of_wordIndex rfl h (readWord_of_invalid hw)⟩

end

end Sys2Proof

namespace Sys2Proof.Machine

/-! ### The laws of the word accesses -/

theorem runHost_nil (s : State) : runHost s [] = .next { s with hostIn := [] } := rfl

/-- The host stores a word: it writes DATA and issues WRW, then goes on (R324). -/
theorem runHost_storeWord {s : State} {imm : Imm15} (rd : Reg) (w : Word) (es : List HostEvent)
    (hs : s.fault = false) (h : imm.toNat < s.cfg.words) :
    runHost s (putData w :: issue (.wrw rd imm) :: es) = runHost ((s.setData w).writeWord rd imm.toNat w) es := by
  rw [runHost_putData w _ hs]
  exact runHost_issue es rfl hs (exec_wrw rd rfl h)

theorem runHost_storeWord_storeWord {s : State} {j k : Imm15} (rd : Reg) (w w' : Word) (hs : s.fault = false)
    (hj : j.toNat < s.cfg.words) (hk : k.toNat < s.cfg.words) :
    runHost s [putData w, issue (.wrw rd j), putData w', issue (.wrw rd k)] = .next
      { (((s.setData w).writeWord rd j.toNat w).setData w').writeWord rd k.toNat w' with hostIn := [] } := by
  rw [runHost_storeWord rd w _ hs hj]
  exact runHost_storeWord rd w' [] hs hk

/-- Writes of different words commute in the register's list of words (R327). -/
theorem writeWord_writeWord_reg (s : State) (rd : Reg) {j k : Nat} (w w' : Word) (h : j ≠ k) :
    (((s.setData w).writeWord rd j w).setData w' |>.writeWord rd k w').reg rd =
      (((s.setData w').writeWord rd k w').setData w |>.writeWord rd j w).reg rd := by
  simp only [writeWord_reg_same, setData_reg]
  exact List.set_comm _ _ h

/-- The host stores the words `f 0` to `f (m - 1)` in V[rd], one by one. -/
def storeWords (rd : Reg) (f : Nat → Word) (m : Nat) : List HostEvent :=
  (List.range m).flatMap fun k => [putData (f k), issue (.wrw rd (BitVec.ofNat 15 k))]

theorem storeWords_succ (rd : Reg) (f : Nat → Word) (m : Nat) :
    storeWords rd f (m + 1) = storeWords rd f m ++ [putData (f m), issue (.wrw rd (BitVec.ofNat 15 m))] := by
  rw [storeWords, List.range_succ, List.flatMap_append, List.flatMap_singleton]
  rfl

/-- Stored words stay in the register: the stores after them are of other words. -/
theorem runHost_storeWords {s : State} (rd : Reg) (f : Nat → Word) {m : Nat} (hs : s.fault = false) (hwf : s.Wf)
    (hm : m ≤ s.cfg.words) (h15 : m ≤ 2 ^ 15) :
    ∃ t, runHost s (storeWords rd f m) = .next t ∧ t.cfg = s.cfg ∧ t.fault = false ∧ t.Wf ∧
      ∀ k, k < m → HoldsWord t rd k (f k) := by
  induction m with
  | zero => exact ⟨_, rfl, rfl, hs, hwf, nofun⟩
  | succ m ih =>
    obtain ⟨t, ht, hcfg, hfault, hwft, hwords⟩ := ih (Nat.le_of_succ_le hm) (Nat.le_of_succ_le h15)
    have himm : (BitVec.ofNat 15 m).toNat = m := Nat.mod_eq_of_lt h15
    have hmt : m < t.cfg.words := hcfg ▸ hm
    refine ⟨{ (t.setData (f m)).writeWord rd m (f m) with hostIn := [] }, ?_, hcfg, hfault,
      wf_writeWord (s := t.setData (f m)) hwft rd m (f m), fun k hk => ?_⟩
    · rw [storeWords_succ, runHost_append, ht, andThen_next,
        runHost_storeWord rd (f m) [] hfault (by rwa [himm]), himm, runHost_nil]
    · obtain hlt | rfl := Nat.lt_succ_iff_lt_or_eq.1 hk
      · exact (writeWord_getElem?_ne (t.setData (f m)) rd (f m) hlt.ne).trans (hwords k hlt)
      · exact writeWord_holdsWord (s := t.setData (f k)) hwft rd (f k) hmt

/-- Settles O54: RDW finds the word that WRW left; stores of different words set different places of one list; and the
stored words of x are all of its words (`runHost_storeWords`). -/
theorem wordAccessLaws : Obligations.WordAccessLaws := by
  unfold Obligations.WordAccessLaws
  rintro N s rd hs hwf rfl
  refine ⟨fun w imm h => ?_, fun w w' j k hj hk hjk => ?_, fun x h15 => ?_⟩
  · have hread := exec_rdw (writeWord_holdsWord (s := s.setData w) hwf rd w h) h
    exact ⟨_, (runHost_storeWord rd w _ hs h).trans (runHost_issue [] rfl hs hread), rfl, hs⟩
  · exact ⟨_, _, runHost_storeWord_storeWord rd w w' hs hj hk, runHost_storeWord_storeWord rd w' w hs hk hj,
      writeWord_writeWord_reg s rd w w' (mt BitVec.eq_of_toNat_eq hjk)⟩
  · obtain ⟨t, ht, hcfg, -, hwft, hwords⟩ :=
      runHost_storeWords rd (fun k => x.extractLsb' (64 * k) 64) hs hwf le_rfl h15
    exact ⟨t, ht, congrArg Config.width hcfg, hwft rd, fun k hk => hwords k (hcfg ▸ hk)⟩

end Sys2Proof.Machine

/-! ## Faults, the fault state and reset

The checks before and after the reads (R412 to R416) and the conditions that never fault (R417) follow from what the
earlier parts say of each command. A command's causes and the reason of each UNINIT (R401, R405, R410) are read off its
body, read by read and check by check (`exec_raises`); so is the entry of the fault state (R402), which only reset leaves
(R404, R450). -/

namespace Sys2Proof.Machine

/-! ### Checks before and after the reads -/

/-- Settles O12: the two checks are the first parts of their bodies, and SEQB makes none. -/
theorem sequenceAndIndexChecksComeFirst : Obligations.SequenceAndIndexChecksComeFirst := by
  unfold Obligations.SequenceAndIndexChecksComeFirst
  intro s _
  exact ⟨faults_seqState, fun r imm h => ⟨faults_wordIndex rfl h, faults_wordIndex rfl h⟩,
    fun ts ss rd _ => exec_seqb ts ss rd s⟩

theorem not_inRange {d : Int} {bound : Nat} (h : d < 0 ∨ (bound : Int) ≤ d) : ¬(0 ≤ d ∧ d < (bound : Int)) := by
  omega

theorem immVal_not_inRange {imm : Imm15} {bound : Nat} (h : bound ≤ imm.toNat) :
    ¬(0 ≤ immVal imm ∧ immVal imm < (bound : Int)) :=
  mt (immVal_inRange_iff imm bound).1 h.not_gt

/-- Settles O13: each check comes after reads that succeed, in the register and in the immediate form. -/
theorem rangeChecksFault : Obligations.RangeChecksFault := by
  unfold Obligations.RangeChecksFault
  intro N s sg rd ra rb x w imm _ hx hw
  have hd := readDist_of_holds hw
  refine ⟨fun h => ?_, fun h => ?_, fun h => ?_, fun h => ?_⟩
  · have hr := not_inRange h
    exact ⟨faults_wordShiftRange rfl hx hd hr, faults_wordShiftRange rfl hx hd hr⟩
  · have hr := immVal_not_inRange h
    exact ⟨faults_wordShiftRange rfl hx rfl hr, faults_wordShiftRange rfl hx rfl hr⟩
  · have hr := not_inRange h
    exact ⟨faults_rotRange rfl hx hd hr, faults_rotRange rfl hx hd hr, faults_bitIndex rfl hx hd hr,
      faults_bitIndex rfl hx hd hr, faults_bitIndex rfl hx hd hr, faults_bitIndex rfl hx hd hr⟩
  · have hr := immVal_not_inRange h
    exact ⟨faults_rotRange rfl hx rfl hr, faults_rotRange rfl hx rfl hr, faults_bitIndex rfl hx rfl hr,
      faults_bitIndex rfl hx rfl hr, faults_bitIndex rfl hx rfl hr, faults_bitIndex rfl hx rfl hr⟩

/-! ### Conditions that never fault -/

theorem Writes.completes {N : Nat} {i : Instr} {s : State} {rd : Reg} {y : BitVec N} {ov : Bool}
    (h : Writes i s rd y ov) (hs : s.fault = false) : ∃ t, exec i s = .next t ∧ t.fault = false := by
  obtain ⟨t, hexec, -, hframe, -⟩ := h
  exact ⟨t, hexec, by rw [hframe]; exact hs⟩

theorem writeDivfw_fault (s : State) (sg : Sign) (rd re : Reg) (D lo b : Int) :
    (s.writeDivfw sg rd re D lo b).fault = s.fault := by
  unfold State.writeDivfw
  split <;> rfl

/-- Settles O14: with readable sources each of these commands has an equation that names the state it leaves, and none of
these states is a fault state. -/
theorem dataDependentConditionsNeverFault : Obligations.DataDependentConditionsNeverFault := by
  unfold Obligations.DataDependentConditionsNeverFault
  intro N s sg ts ss rd re ra rb rc a b c w imm hs hne ha hb hc hdata hopen
  obtain rfl : s.cfg.width = N := ha.1
  have hw : HoldsWord s rb 0 (b.extractLsb' 0 64) := holdsWord_of_holds hb (words_pos s.cfg)
  have hd := readDist_of_holds hw
  simp only [List.forall_mem_cons]
  refine ⟨⟨_, exec_div sg hne ha hb, hs⟩, ⟨_, exec_divd sg hne ha hw, hs⟩,
    ⟨_, exec_divfw sg hne ha hb hc, (writeDivfw_fault ..).trans hs⟩, ⟨_, exec_neg sg rd ha, hs⟩,
    ⟨_, exec_add sg rd ha hb, hs⟩, ⟨_, exec_sub sg rd ha hb, hs⟩, ⟨_, exec_addd sg rd ha hw, hs⟩,
    ⟨_, exec_subd sg rd ha hw, hs⟩, ⟨_, exec_mul sg rd ha hb, hs⟩, ⟨_, exec_muld sg rd ha hw, hs⟩,
    (writes_shl sg rd ha hw).completes hs, (writes_shli rd imm ha).completes hs,
    (writes_shr sg rd ha hw).completes hs, (writes_shri sg rd imm ha).completes hs,
    (writes_of_maskLeft rfl ha hd).completes hs, (writes_shlmi rd imm ha).completes hs,
    (writes_of_maskRight rfl ha hd).completes hs, (writes_shrmi sg rd imm ha).completes hs,
    ⟨_, exec_seqe hopen, ?_⟩, ⟨_, exec_fromwe ts ss rd hdata, ?_⟩, List.forall_mem_nil _⟩
  · exact ((Keeps.refl s).writeOptional ..).closeSeq.fault.trans hs
  · exact ((Keeps.refl s).writeOptional ..).fault.trans hs

/-! ### Reads and the reason of their UNINIT -/

/-- The read `x` has one cause, UNINIT; it fails where `p`, which says that its source is invalid, and, with registers of
n words, only there (R24, R25, R410). -/
structure FailsExactly {α : Type} (s : State) (p : Prop) (x : Except Cause α) : Prop where
  cause : ∀ k, x = .error k → k = .uninit
  uninit : p → x = .error .uninit
  invalid : s.Wf → x = .error .uninit → p

section
variable {s : State}

theorem failsExactly_readV (N : Nat) (r : Reg) : FailsExactly s (HasInvalid s r) (readV N s r) := by
  refine ⟨fun _ => readV_eq_error, readV_of_invalid, fun _ h => ?_⟩
  rw [HasInvalid, ← allValid_eq_none_iff]
  cases ha : allValid (s.reg r) with
  | none => rfl
  | some ws => simp [readV, ha] at h

/-- A single word that exists is either valid or not; with registers of n words, word k < n exists (R21). -/
theorem failsExactly_readWord (r : Reg) {k : Nat} (hk : k < s.cfg.words) :
    FailsExactly s (InvalidWord s r k) (readWord s r k) := by
  refine ⟨fun _ => readWord_eq_error, readWord_of_invalid, fun hwf h => ?_⟩
  have hlt : k < (s.reg r).length := hwf r ▸ hk
  rw [InvalidWord, List.getElem?_eq_getElem hlt]
  cases hw : (s.reg r)[k] with
  | none => rfl
  | some w =>
    rw [readWord_of_holds (w := w) (by rw [HoldsWord, List.getElem?_eq_getElem hlt, hw])] at h
    cases h

theorem failsExactly_readData : FailsExactly s (s.data = none) (readData s) := by
  refine ⟨fun _ => readData_eq_error, readData_of_invalid, fun _ h => ?_⟩
  cases hd : s.data with
  | none => rfl
  | some w => simp [readData, hd] at h

/-- A value that is in the command word is not read from anywhere (R75). -/
theorem failsExactly_immediate {α : Type} (a : α) : FailsExactly s False (.ok a) := ⟨nofun, nofun, nofun⟩

/-- A reading of what was read adds no cause. -/
theorem FailsExactly.map {α β : Type} {p : Prop} {x : Except Cause α} (h : FailsExactly s p x) (g : α → β) :
    FailsExactly s p (x >>= fun a => .ok (g a)) :=
  ⟨fun k hk => h.cause k (bind_ok_eq_error hk), fun hp => by rw [h.uninit hp, bind_error],
    fun hwf hk => h.invalid hwf (bind_ok_eq_error hk)⟩

theorem failsExactly_readVal (sg : Sign) (r : Reg) : FailsExactly s (HasInvalid s r) (readVal s sg r) :=
  (failsExactly_readV s.cfg.width r).map _

theorem failsExactly_readDigit (sg : Sign) (r : Reg) : FailsExactly s (InvalidWord s r 0) (readDigit s sg r) :=
  (failsExactly_readWord r (words_pos s.cfg)).map _

theorem failsExactly_readDist (r : Reg) : FailsExactly s (InvalidWord s r 0) (readDist s r) :=
  (failsExactly_readWord r (words_pos s.cfg)).map _

theorem failsExactly_readDataVal (sg : Sign) : FailsExactly s (s.data = none) (readDataVal s sg) :=
  failsExactly_readData.map _

end

/-! ### What the body of a command raises -/

/-- The causes that R401 lists for the command, and ILLEGAL_CMD for an ill-formed one (log 7). -/
def mayRaise (i : Instr) (k : Cause) : Bool := i.causes.contains k || (k == .illegalCmd && !i.wellFormed)

theorem mayRaise_iff {i : Instr} {k : Cause} :
    mayRaise i k = true ↔ k ∈ i.causes ∨ (k = .illegalCmd ∧ i.wellFormed = false) := by
  simp [mayRaise]

/-- What the body `x` of the command `i` at `s` raises, `inv` saying that a source which it reads is invalid: it faults
with the command's own causes, with UNINIT where `inv` once the early checks pass and, with registers of n words, only
there; and it does not complete into the fault state by itself (R401, R405, R410). -/
structure Raises (i : Instr) (s : State) (inv : Prop) (x : Except Cause State) : Prop where
  cause : ∀ k, x = .error k → mayRaise i k = true
  uninit : EarlyChecksPass s i → inv → x = .error .uninit
  invalid : s.Wf → x = .error .uninit → inv
  completes : ∀ t, x = .ok t → t.fault = s.fault

section
variable {i : Instr} {s : State} {inv p : Prop}

theorem raises_ok {t : State} (h : t.fault = s.fault) : Raises i s False (.ok t) :=
  ⟨nofun, nofun, nofun, fun _ ht => Except.ok.inj ht ▸ h⟩

theorem Raises.congr {x : Except Cause State} (h : Raises i s p x) (hp : p ↔ inv) : Raises i s inv x :=
  propext hp ▸ h

/-- A read before the rest of the body: its source is one more reason for UNINIT. -/
theorem raises_read {α : Type} {x : Except Cause α} {f : α → Except Cause State} (hu : mayRaise i .uninit = true)
    (hx : FailsExactly s p x) (h : ∀ a, Raises i s inv (f a)) : Raises i s (p ∨ inv) (x >>= f) := by
  cases x with
  | error k =>
    obtain rfl := hx.cause k rfl
    exact ⟨fun k hk => Except.error.inj hk ▸ hu, fun _ _ => rfl, fun hwf _ => .inl (hx.invalid hwf rfl), nofun⟩
  | ok a =>
    have hp : ¬p := fun hp => nomatch hx.uninit hp
    exact (h a).congr (by simp [hp])

/-- A check before the rest of the body, which passes where the early checks and an invalid source ask for UNINIT. -/
theorem raises_check {b : Bool} {k : Cause} {f : Unit → Except Cause State} (hk : b = false → mayRaise i k = true)
    (hne : k ≠ .uninit) (hpass : EarlyChecksPass s i → inv → b = true) (h : b = true → Raises i s inv (f ())) :
    Raises i s inv (check b k >>= f) := by
  cases b with
  | true => exact h rfl
  | false =>
    exact ⟨fun j hj => Except.error.inj hj ▸ hk rfl, fun hearly hinv => Bool.noConfusion (hpass hearly hinv),
      fun _ hj => absurd (Except.error.inj hj) hne, nofun⟩

/-- The range check of a shift or rotation: none, or one with a cause of the command's own (R414, R415). -/
def GuardRaises (i : Instr) (guard : Int → Except Cause Unit) : Prop :=
  ∀ d k, guard d = .error k → mayRaise i k = true ∧ k ≠ .uninit

theorem guardRaises_noGuard : GuardRaises i noGuard := nofun

theorem guardRaises_check {b : Int → Bool} {j : Cause} (hj : mayRaise i j = true) (hne : j ≠ .uninit) :
    GuardRaises i fun d => check (b d) j := by
  intro d k hk
  obtain ⟨-, rfl⟩ := check_eq_error_iff.1 hk
  exact ⟨hj, hne⟩

theorem raises_shiftBody {rd ra : Reg} {dist : Except Cause Int} {guard : Int → Except Cause Unit}
    {f : BitVec s.cfg.width → Int → BitVec s.cfg.width} (hu : mayRaise i .uninit = true)
    (hd : FailsExactly s p dist) (hg : GuardRaises i guard) :
    Raises i s (HasInvalid s ra ∨ p ∨ False) (shiftBody s rd ra dist guard f) := by
  refine raises_read hu (failsExactly_readV _ ra) fun _ => raises_read hu hd fun d => ?_
  cases hgd : guard d with
  | ok _ => exact raises_ok rfl
  | error k =>
    obtain ⟨hk, hne⟩ := hg d k hgd
    exact ⟨fun j hj => Except.error.inj hj ▸ hk, nofun, fun _ hj => absurd (Except.error.inj hj) hne, nofun⟩

theorem raises_bitBody {rd ra : Reg} {index : Except Cause Int} {f : BitVec s.cfg.width → Nat × Nat → BitVec s.cfg.width}
    (hu : mayRaise i .uninit = true) (hr : mayRaise i .bitIndex = true) (hd : FailsExactly s p index) :
    Raises i s (HasInvalid s ra ∨ p ∨ False) (bitBody s rd ra index f) :=
  raises_read hu (failsExactly_readV _ ra) fun _ => raises_read hu hd fun _ =>
    raises_check (fun _ => hr) nofun nofun fun _ => raises_ok rfl

/-- The early check of a two-destination command: RD and RE differ exactly where the command is well formed (R80 (e)). -/
theorem raises_destinations {rd re : Reg} {f : Unit → Except Cause State} (hw : i.wellFormed = (rd != re))
    (h : Raises i s inv (f ())) : Raises i s inv (check (rd != re) .illegalCmd >>= f) := by
  rw [← hw]
  exact raises_check (fun hf => mayRaise_iff.2 (.inr ⟨rfl, hf⟩)) nofun (fun hearly _ => hearly.1) fun _ => h

/-- The early check of WRW and RDW (R413). -/
theorem raises_wordIndex {r : Reg} {imm : Imm15} {f : Unit → Except Cause State} (hi : i = .wrw r imm ∨ i = .rdw r imm)
    (h : imm.toNat < s.cfg.words → Raises i s inv (f ())) : Raises i s inv (wordIndexGuard s imm >>= f) := by
  refine raises_check (fun _ => ?_) nofun (fun hearly _ => ?_) fun hlt => h (of_decide_eq_true hlt)
  · obtain rfl | rfl := hi <;> rfl
  · obtain ⟨-, -, hindex⟩ := hearly
    exact decide_eq_true (hindex r imm hi)

/-- The early check of SEQW and SEQE (R412). -/
theorem raises_seqOpen {f : Unit → Except Cause State} (hi : i = .seqw ∨ i = .seqe) (h : Raises i s inv (f ())) :
    Raises i s inv (check s.seqOpen .seqState >>= f) := by
  refine raises_check (fun _ => ?_) nofun (fun hearly _ => ?_) fun _ => h
  · obtain rfl | rfl := hi <;> rfl
  · obtain ⟨-, hopen, -⟩ := hearly
    exact hopen hi

/-- A body whose reads are those of the command's sources (R79, R410). -/
theorem Raises.of_reads {x : Except Cause State} (h : Raises i s inv x)
    (hinv : inv ↔ InvalidSource s i := by
      simp [InvalidSource, Instr.fullSources, Instr.wordSources, Instr.readsData]) :
    Raises i s (InvalidSource s i) x :=
  h.congr hinv

end

/-! ### What each command raises -/

/-- DIVD reads word 0 of its dividend again, after the whole dividend (R191). -/
theorem invalidSource_divd {s : State} {sg : Sign} {rd re ra rb : Reg} :
    HasInvalid s ra ∨ InvalidWord s ra 0 ∨ InvalidWord s rb 0 ∨ False ↔ InvalidSource s (.divd sg rd re ra rb) := by
  have hagain : HasInvalid s ra ∨ InvalidWord s ra 0 ↔ HasInvalid s ra := or_iff_left_of_imp fun h => ⟨0, h⟩
  rw [← or_assoc, hagain]
  simp [InvalidSource, Instr.fullSources, Instr.wordSources, Instr.readsData]

/-- Everything a command can raise, and for what reason: its body, read by read and check by check. -/
theorem exec_raises (i : Instr) (s : State) : ∃ x, exec i s = command i s x ∧ Raises i s (InvalidSource s i) x := by
  have full (sg : Sign) (r : Reg) := failsExactly_readVal (s := s) sg r
  have digit (sg : Sign) (r : Reg) := failsExactly_readDigit (s := s) sg r
  cases i with
  | wrw => exact ⟨_, rfl, .of_reads (raises_wordIndex (.inl rfl) fun _ =>
      raises_read rfl failsExactly_readData fun _ => raises_ok rfl)⟩
  | rdw => exact ⟨_, rfl, .of_reads (raises_wordIndex (.inr rfl) fun hlt =>
      raises_read rfl (failsExactly_readWord _ hlt) fun _ => raises_ok rfl)⟩
  | seqb ts ss rd => exact ⟨.ok (s.openSeq rd ts ss), rfl, .of_reads (raises_ok rfl)⟩
  | seqw => exact ⟨_, rfl, .of_reads (raises_seqOpen (.inl rfl)
      (raises_read rfl failsExactly_readData fun _ => raises_ok rfl))⟩
  | seqe => exact ⟨_, rfl, .of_reads (raises_seqOpen (.inr rfl)
      (raises_ok ((Keeps.refl s).writeOptional ..).closeSeq.fault))⟩
  | fromwt | fromwc => exact ⟨_, rfl, .of_reads (raises_read rfl (failsExactly_readDataVal _) fun _ => raises_ok rfl)⟩
  | fromwe => exact ⟨_, rfl, .of_reads (raises_read rfl (failsExactly_readDataVal _) fun _ =>
      raises_ok ((Keeps.refl s).writeOptional ..).fault)⟩
  | add | sub | mul => exact ⟨_, rfl, .of_reads (raises_read rfl (full ..) fun _ => raises_read rfl (full ..) fun _ =>
      raises_ok rfl)⟩
  | addd | subd | muld => exact ⟨_, rfl, .of_reads (raises_read rfl (full ..) fun _ =>
      raises_read rfl (digit ..) fun _ => raises_ok rfl)⟩
  | mulfw | div => exact ⟨_, rfl, .of_reads (raises_destinations rfl (raises_read rfl (full ..) fun _ =>
      raises_read rfl (full ..) fun _ => raises_ok rfl))⟩
  | mulfwd => exact ⟨_, rfl, .of_reads (raises_destinations rfl (raises_read rfl (full ..) fun _ =>
      raises_read rfl (digit ..) fun _ => raises_ok rfl))⟩
  | divfw => exact ⟨_, rfl, .of_reads (raises_destinations rfl (raises_read rfl (full ..) fun _ =>
      raises_read rfl (full ..) fun _ => raises_read rfl (full ..) fun _ => raises_ok (by split <;> rfl)))⟩
  | divd => exact ⟨_, rfl, .of_reads (raises_destinations rfl (raises_read rfl (full ..) fun _ =>
      raises_read rfl (digit ..) fun _ => raises_read rfl (digit ..) fun _ => raises_ok rfl)) invalidSource_divd⟩
  | not | neg => exact ⟨_, rfl, .of_reads (raises_read rfl (failsExactly_readV ..) fun _ => raises_ok rfl)⟩
  | mag => exact ⟨_, rfl, .of_reads (raises_read rfl (full ..) fun _ => raises_ok rfl)⟩
  | shl | shr | shlm | shrm =>
    exact ⟨_, rfl, .of_reads (raises_shiftBody rfl (failsExactly_readDist _) guardRaises_noGuard)⟩
  | shli | shri | shlmi | shrmi =>
    exact ⟨_, rfl, .of_reads (raises_shiftBody rfl (failsExactly_immediate _) guardRaises_noGuard)⟩
  | shlw | shrw | rol | ror =>
    exact ⟨_, rfl, .of_reads (raises_shiftBody rfl (failsExactly_readDist _) (guardRaises_check rfl nofun))⟩
  | shlwi | shrwi | roli | rori =>
    exact ⟨_, rfl, .of_reads (raises_shiftBody rfl (failsExactly_immediate _) (guardRaises_check rfl nofun))⟩
  | bget | bset | bclr | btgl => exact ⟨_, rfl, .of_reads (raises_bitBody rfl rfl (failsExactly_readDist _))⟩
  | bgeti | bseti | bclri | btgli => exact ⟨_, rfl, .of_reads (raises_bitBody rfl rfl (failsExactly_immediate _))⟩

/-- A command that faults does so with the cause of its body. -/
theorem exec_fault_raises {i : Instr} {s t : State} (hs : s.fault = false) (h : exec i s = .next t)
    (ht : t.fault = true) : ∃ k, t = enterFault k (encode i) s ∧ mayRaise i k = true ∧
      (s.Wf → k = .uninit → InvalidSource s i) := by
  obtain ⟨x, hx, hraises⟩ := exec_raises i s
  obtain hok | ⟨k, rfl, rfl⟩ := command_eq_next_iff.1 (hx.symm.trans h)
  · rw [hraises.completes t hok, hs] at ht
    cases ht
  · exact ⟨k, rfl, hraises.cause k rfl, fun hwf hk => hraises.invalid hwf (congrArg Except.error hk)⟩

/-- Settles O10: the codes by evaluation, the causes from `exec_raises`. -/
theorem causesAreTheCommandsOwn : Obligations.CausesAreTheCommandsOwn := by
  unfold Obligations.CausesAreTheCommandsOwn
  refine ⟨⟨rfl, rfl, rfl, rfl, rfl, rfl, rfl⟩, fun i s t hs h ht => ?_⟩
  obtain ⟨k, rfl, hcause, -⟩ := exec_fault_raises hs h ht
  exact ⟨rfl, k, rfl, mayRaise_iff.1 hcause⟩

theorem code_eq_two_iff (k : Cause) : k.code = 2 ↔ k = .uninit := by cases k <;> decide

/-- Settles O11, both halves from `exec_raises`. -/
theorem invalidSourcesRaiseUninit : Obligations.InvalidSourcesRaiseUninit := by
  unfold Obligations.InvalidSourcesRaiseUninit
  refine ⟨fun i s _ hearly hinvalid => ?_, fun i s t hs hwf h ht hcause => ?_⟩
  · obtain ⟨x, hx, hraises⟩ := exec_raises i s
    exact faults_of_body_error (k := .uninit) hx (hraises.uninit hearly hinvalid)
  · obtain ⟨k, rfl, -, hinvalid⟩ := exec_fault_raises hs h ht
    exact hinvalid hwf ((code_eq_two_iff k).1 hcause)

/-! ### Entering and leaving the fault state -/

/-- A CMD write that faults records the word that was written, legal or not (R402, R411). -/
theorem writeCmd_fault {c : CmdWord} {s t : State} (hs : s.fault = false) (h : writeCmd c s = .next t)
    (ht : t.fault = true) : ∃ k, t = enterFault k c s := by
  rw [writeCmd_running hs] at h
  cases hd : decode c with
  | ok i =>
    obtain ⟨k, hk, -⟩ := exec_fault_raises hs (by simpa [hd] using h) ht
    exact ⟨k, encode_of_decode hd ▸ hk⟩
  | error e => exact ⟨.illegalCmd, by simpa [hd, eq_comm] using h⟩

/-- Settles O7: the step is the CMD write, which faults by `enterFault` alone. -/
theorem faultEntryWritesOnlyTheFaultState : Obligations.FaultEntryWritesOnlyTheFaultState := by
  unfold Obligations.FaultEntryWritesOnlyTheFaultState
  intro s t c rest hin hs h ht
  have hwrite : step s = writeCmd c { s with hostIn := rest } := step_cons hin
  rw [hwrite] at h
  exact writeCmd_fault (s := { s with hostIn := rest }) hs h ht

theorem writeData_faulted {w : Word} {s : State} (h : s.fault = true) : writeData w s = s := if_pos h

/-- Reset has a step exactly while no access is outstanding, and leaves the reset state (R450, R452). -/
theorem resetEvent_eq_next_iff {m : ResetMoment} {s t : State} :
    resetEvent m s = .next t ↔ m ≠ .accessOutstanding ∧ t = s.afterReset := by
  cases m <;> simp [resetEvent, eq_comm]

/-- In the fault state no access changes anything but what the host has read (R404). -/
theorem hostEvent_faulted_frame {e : HostEvent} {s t : State} (hs : s.fault = true) (he : ∀ m, e ≠ .reset m)
    (h : hostEvent e s = .next t) : t = { s with hostOut := t.hostOut, draws := t.draws } := by
  cases e with
  | read offset width => exact hostRead_frame h
  | write offset value =>
    obtain rfl : t = s := by
      obtain ⟨c, -, -, hc⟩ | ⟨w, -, -, ht⟩ | ht := hostWrite_cases h
      · rw [writeCmd_faulted hs] at hc
        exact (Host.Outcome.next.inj hc).symm
      · rwa [writeData_faulted hs] at ht
      · exact ht
    rfl
  | reset m => exact absurd rfl (he m)

/-- Settles O9: the reads are those of every state (`windowAccesses`), and the writes are ignored. -/
theorem faultStateIsQuiescent : Obligations.FaultStateIsQuiescent := by
  unfold Obligations.FaultStateIsQuiescent
  intro s e rest hs hin
  obtain ⟨-, hzero, hstatus, hfcmd, hdata, -⟩ := windowAccesses s rest
  have hstep : step s = hostEvent e { s with hostIn := rest } := step_cons hin
  refine ⟨?_, ?_, ?_, ?_, ?_, ?_, fun t he h => ?_, ?_⟩
  · rintro c rfl
    exact hstep.trans (writeCmd_faulted hs)
  · rintro w rfl
    exact hstep.trans (congrArg Host.Outcome.next (writeData_faulted hs))
  · rintro w hw rfl
    exact hdata w hw hin
  · rintro rfl
    exact hstatus hin
  · rintro rfl
    exact hfcmd hin
  · rintro o ho rfl
    exact hzero o ho hin
  · exact hostEvent_faulted_frame (s := { s with hostIn := rest }) hs he (hstep.symm.trans h)
  · rintro m t rfl h
    obtain ⟨-, rfl⟩ := resetEvent_eq_next_iff.1 (hstep.symm.trans h)
    rfl

/-- Settles O21: the state left is `State.afterReset`, whose STATUS is that of the reset state (`statusFields`). -/
theorem resetLeavesTheResetState : Obligations.ResetLeavesTheResetState := by
  unfold Obligations.ResetLeavesTheResetState
  intro s m rest hin hm
  obtain ⟨-, -, -, hstatus⟩ := statusFields
  refine ⟨_, (step_cons hin).trans (resetEvent_eq_next_iff.2 ⟨hm, rfl⟩), fun r k hk => ?_, wf_afterReset _, rfl, rfl,
    rfl, rfl, rfl, hstatus s.cfg, rfl, rfl, rfl, rfl, rfl, rfl⟩
  rw [InvalidWord, afterReset_reg]
  exact List.getElem?_replicate_of_lt hk

end Sys2Proof.Machine
